-- ==== Sys2Proof/Word.lean ====
section
/-! DEFINITION. The two words of the D740 that wrap: the byte of a frame and the 32-bit count of seconds. Every other
quantity of the manual is a whole number with a stated range and is a `Nat` (or an `Int` where it is signed). -/
namespace Sys2Proof

/-- A byte of a frame (11 R170). -/
abbrev Byte := BitVec 8

/-- A 32-bit count of seconds: run seconds, network time, a stamp or a deadline (09 R158). It wraps. -/
abbrev Sec := BitVec 32

end Sys2Proof
end

