-- ==== Sys2Proof/Syntax.lean ====
section
/-! DEFINITION. The commands of the D740: one constructor for each row of spec/opcode_table.json.

A request carries its frame's TAG and the fields of 11 Table 11-5 as the numbers they hold in the frame, enumerated
fields included, because an enumerated byte beyond its list is an answer of the part (RANGE, 11 R171) and not an
ill-formed command. An event (a pin, a frame on the line, a timer, the clock) carries no tag. -/
namespace Sys2Proof

/-- One character received on RXD: its 8 data bits and the level of its stop bit (10 R161). -/
structure RxChar where
  data : Byte
  stop : Bool
  deriving DecidableEq, Repr

inductive Instr where
  /-- COLD_START (09 R147): power-on or RESET_N low; the levels of RATE1..0 as they are sampled (10 R161). -/
  | coldStart (rate : BitVec 2)
  /-- FRAME_RECEIVED (10 R162): characters received on RXD with no gap of more than 20 ms between them. -/
  | frameReceived (chars : List RxChar)
  /-- FRAME_GAP_ABANDON (10 R162): more than 20 ms have passed since the last byte of a frame. -/
  | frameGapAbandon
  /-- TRANSMIT_FRAME (10 R163): the head of the transmit order is sent whole on TXD. -/
  | transmitFrame
  | ident (tag : Byte)
  | status (tag : Byte)
  | setClock (tag : Byte) (time : Nat)
  | restart (tag : Byte)
  | fetch (tag : Byte)
  | read (tag : Byte) (kind number : Nat)
  | list (tag : Byte) (which argument start : Nat)
  | amend (tag : Byte) (kind number mask : Nat) (values : List Byte)
  | weather (tag : Byte) (factor : Nat)
  | loadCursor (tag : Byte) (table index : Nat)
  | loadPart (tag : Byte) (content : List Byte)
  | loadRead (tag : Byte)
  | commit (tag : Byte)
  | forceLive (tag : Byte)
  | enterMaintenance (tag : Byte)
  | adopt (tag : Byte)
  | abandon (tag : Byte)
  | sample (tag : Byte) (point raw quality : Nat)
  /-- POINT_INTERVAL_EXPIRY (02 R33). -/
  | pointIntervalExpiry (point : Nat)
  | valveReport (tag : Byte) (valve position : Nat)
  | valveClose (tag : Byte) (valve : Nat)
  | valveCloseTimed (tag : Byte) (valve duration : Nat)
  | valveOpen (tag : Byte) (valve : Nat)
  | clearFault (tag : Byte) (valve position : Nat)
  /-- ORDER_TIMEOUT (04 R80). -/
  | orderTimeout (valve : Nat)
  /-- TIMED_HOLD_EXPIRY (04 R82). -/
  | timedHoldExpiry (valve : Nat)
  /-- VERIFY_DEADLINE_EXPIRY (04 R83). -/
  | verifyDeadlineExpiry (valve : Nat)
  | isolate (tag : Byte) (segment call : Nat)
  | release (tag : Byte) (isolation : Nat)
  | relight (tag : Byte) (segment count : Nat)
  | settle (tag : Byte) (segment : Nat)
  | call (tag : Byte) (kind segment key grade : Nat)
  | assign (tag : Byte) (call crew : Nat)
  | callEventOnSite (tag : Byte) (call : Nat)
  | callEventMadeSafe (tag : Byte) (call : Nat)
  | callEventClose (tag : Byte) (call : Nat)
  | crew (tag : Byte) (crew homeFeed shift : Nat)
  /-- CALL_DEADLINE_EXPIRY (07 R136). -/
  | callDeadlineExpiry (call : Nat)
  | screenSet (tag : Byte) (screen urgency scope care required : Nat)
  | screenOff (tag : Byte) (screen : Nat)
  /-- RUN_SECONDS_ADVANCE (09 R158). -/
  | runSecondsAdvance
  deriving DecidableEq, Repr

end Sys2Proof
end

