-- ==== Sys2Proof/Decode.lean ====
section
/-! DEFINITION. The table gives no row any bits (98 "n_rows_with_fixed": 0): no word spells a command. Requests reach
the part as frames, whose decoding is `Sys2Proof.Machine.requestOf`. -/
namespace Sys2Proof

/-- No row of spec/opcode_table.json carries bits, so no word spells a command (log 28). -/
def decodeTableWord (_nbits _w : Nat) : Option Instr := none

end Sys2Proof
end

