-- ==== Sys2Proof/Config.lean ====
section
/-! DEFINITION. What the manual fixes for every D740 (00 Tables 3 to 5) and the values it leaves open, as constants
without a body. -/
namespace Sys2Proof.Config

/-! Record numbers run from 0 to one less than these (00 Table 3). -/
def segments : Nat := 512
def valves : Nat := 1024
def points : Nat := 768
def feeds : Nat := 64
def crews : Nat := 48
def screens : Nat := 16

/-! Numbers assigned by the part run from 1 to these (00 Table 3). -/
def lastCallNumber : Nat := 65535
def lastIsolationNumber : Nat := 255

/-! Capacities (00 Table 4). -/
def touchingValves : Nat := 8
def callRecords : Nat := 256
def isolationRecords : Nat := 32
def planEntries : Nat := 40
def fallbacks : Nat := 4
def customers : Nat := 20000
def payload : Nat := 240
def heldRequests : Nat := 2
def gapMilliseconds : Nat := 20

/-- The greatest pressure, end pressure and drop, in pascals (00 Table 2, 03 R56). -/
def maxPressure : Nat := 999999

/-- The limit of a flow, in litres per hour (03 R55). -/
def maxFlow : Nat := 99999999

/-- FREE VALUE. The two bytes "part written" and "record complete" of a LOAD-PART reply to the absent mark: 09 R150
names the two fields for a part and states no value for a deletion (log 16). It may depend on the cursor's table,
index and part counter. -/
opaque absentPartReply : Nat → Nat → Nat → Byte × Byte

/-- FREE VALUE. The relit count in the reply to a RELIGHT that leaves no outage part: 06 R114 puts the count after the
request in the reply and states none without a part (log 20). It may depend on the segment number, the applied count
and the unrelit count. -/
opaque relitWithoutPart : Nat → Nat → Nat → Nat

/-- FREE VALUE. The stable-target byte in a body whose outage part has no target (stage OFF): 06 Table 6-1 gives none
there and 11 R173 no value for its absence (log 31). It may depend on the started time and the off count. -/
opaque absentStableTarget : Nat → Nat → Nat

end Sys2Proof.Config
end

