-- ==== Sys2Proof/Machine/State.lean ====
section
/-! DEFINITION. The state of the D740, as plain data: the records of every block (00 Table 1), the engine, the control
link and the pins, the queue of waiting commands, and the machine right after a cold start. -/
namespace Sys2Proof.Machine

/-! ### Names -/

/-- The kinds of record, in the order of 00 Table 3. -/
inductive RecordKind where
  | segment | valve | point | feed | call | crew | isolation | screen | engine
  deriving DecidableEq, Repr

/-- A reference to a record: its kind and number (00 "Record references"). -/
structure Ref where
  kind : RecordKind
  num : Nat
  deriving DecidableEq, Repr

/-- A node of the graph (01 R1). -/
inductive Node where
  | seg (num : Nat)
  | feed (num : Nat)
  deriving DecidableEq, Repr

inductive ValveKind where
  | line | tie | outlet
  deriving DecidableEq, Repr

inductive PointKind where
  | feed | extremity | general
  deriving DecidableEq, Repr

inductive LossBehaviour where
  | hold | substitute | drop
  deriving DecidableEq, Repr

/-! ### Static records (01 R2, R4, R6; 02 R25) -/

structure SegStatic where
  homeFeed : Nat
  customers : Nat
  unitLoad : Nat
  resistance : Nat
  minimum : Nat
  warn : Nat
  hysteresis : Nat
  deviation : Nat
  extremity : Option Nat
  deriving DecidableEq, Repr

structure ValveStatic where
  kind : ValveKind
  sideA : Nat
  /-- A segment of a LINE or TIE valve, a feed of an OUTLET valve (01 Table 1-4). -/
  sideB : Nat
  timeout : Nat
  fallbacks : List Nat
  deriving DecidableEq, Repr

structure PointStatic where
  kind : PointKind
  scaleLow : Nat
  span : Nat
  lockCount : Nat
  lossCount : Nat
  shift : Nat
  interval : Nat
  loss : LossBehaviour
  substitute : Nat
  high : Nat
  low : Nat
  hysteresis : Nat
  deriving DecidableEq, Repr

structure FeedStatic where
  point : Nat
  failBelow : Nat
  restoreAt : Nat
  failCount : Nat
  deriving DecidableEq, Repr

/-- The static part of the four loaded tables, each in ascending number (09 section 9.2). -/
structure Topology where
  segs : List (Nat × SegStatic)
  valves : List (Nat × ValveStatic)
  points : List (Nat × PointStatic)
  feeds : List (Nat × FeedStatic)
  deriving DecidableEq, Repr

/-! ### Segment (01 R3, 03 R46, 06 R106, 07 R137, 08 R139) -/

/-- What a FED segment names: supplying feed, effective parent, parent valve and distance (01 Table 1-2). -/
structure SupplyLink where
  feed : Nat
  parent : Node
  valve : Nat
  dist : Nat
  deriving DecidableEq, Repr

/-- The supply state; the four link fields are present exactly when FED (01 R3). -/
inductive Supply where
  | unknown
  | fed (link : SupplyLink)
  | unfed
  deriving DecidableEq, Repr

inductive Band where
  | normal | low | short
  deriving DecidableEq, Repr

/-- End pressure, margin and band, which are present together (03 R46). -/
structure Level where
  press : Nat
  margin : Int
  band : Band
  deriving DecidableEq, Repr

/-- A comparison run above 0, with the target it took when it began (03 R61). -/
structure Run where
  count : Nat
  target : Nat
  deriving DecidableEq, Repr

/-- The estimate fields (03 Table 3-1); an absent level is band "none", an absent run is a run of 0. -/
structure Estimate where
  demand : Nat
  flow : Nat
  drop : Nat
  level : Option Level
  anomaly : Bool
  outside : Option Run
  inside : Option Run
  deriving DecidableEq, Repr

/-- The cause of an outage, in the order of 06 Table 6-1. -/
inductive OutageCause where
  | isolation (num : Nat)
  | feedFailed (feed : Nat)
  | uncommanded (valve : Nat)
  | operator (valve : Nat)
  | fault (valve : Nat)
  | initial
  deriving DecidableEq, Repr

inductive OutageStage where
  | off | repressurizing | relighting
  deriving DecidableEq, Repr

/-- The outage part of a segment (06 Table 6-1). -/
structure Outage where
  cause : OutageCause
  stage : OutageStage
  off : Nat
  relit : Nat
  repeats : Nat
  stable : Nat
  target : Option Nat
  reports : Nat
  started : Sec
  peak : Nat
  deriving DecidableEq, Repr

/-- The last outage summary (06 Table 6-3). -/
structure Summary where
  cause : OutageCause
  started : Sec
  ended : Sec
  peak : Nat
  relit : Nat
  settled : Nat
  repeats : Nat
  deriving DecidableEq, Repr

/-- The thirteen conditions of a segment as bits, bit n for position n of 08 Table 8-1 (11 R171). -/
abbrev CondSet := BitVec 13

structure Segment where
  num : Nat
  st : SegStatic
  supply : Supply
  meshed : Bool
  est : Estimate
  outage : Option Outage
  unrelit : Nat
  summary : Option Summary
  escapes : Nat
  noSupply : Nat
  conds : CondSet
  unverified : Nat
  deriving DecidableEq, Repr

/-! ### Valve (04 R64) -/

/-- A position: of an order, of a report, or known (04). -/
inductive Position where
  | opened | closed
  deriving DecidableEq, Repr

inductive ValveState where
  | opened | closing | closed | opening | stuck
  deriving DecidableEq, Repr

/-- The operator hold of a valve; the expiry is present exactly with a timed hold (04 Table 4-1). -/
inductive OperatorHold where
  | none
  | plain
  | timed (expiry : Sec)
  deriving DecidableEq, Repr

structure Order where
  num : Nat
  target : Position
  issued : Sec
  deadline : Sec
  deriving DecidableEq, Repr

inductive FaultKind where
  | timeout | fieldFault | positionLost
  deriving DecidableEq, Repr

structure FaultLatch where
  kind : FaultKind
  time : Sec
  deriving DecidableEq, Repr

structure Valve where
  num : Nat
  st : ValveStatic
  state : ValveState
  known : Position
  /-- The isolations in the holder set, ascending. -/
  isos : List Nat
  hold : OperatorHold
  order : Option Order
  counter : Nat
  reopen : Bool
  verified : Bool
  verifyDeadline : Option Sec
  unverified : Bool
  uncommanded : Bool
  fault : Option FaultLatch
  moving : Bool
  deriving DecidableEq, Repr

/-! ### Point and feed (02 R26, R38; 03 R47) -/

inductive LockState where
  | seeking | locked | lost
  deriving DecidableEq, Repr

inductive AlarmState where
  | normal | high | low
  deriving DecidableEq, Repr

/-- Pending parameters: one value for each AMEND-able field that awaits the next sample (02 R28). -/
structure Pending where
  scaleLow : Option Nat := none
  span : Option Nat := none
  lockCount : Option Nat := none
  lossCount : Option Nat := none
  shift : Option Nat := none
  interval : Option Nat := none
  loss : Option LossBehaviour := none
  substitute : Option Nat := none
  high : Option Nat := none
  low : Option Nat := none
  hysteresis : Option Nat := none
  deriving DecidableEq, Repr

structure Point where
  num : Nat
  st : PointStatic
  lock : LockState
  good : Nat
  miss : Nat
  latest : Option Nat
  smoothed : Option Nat
  fresh : Bool
  alarm : AlarmState
  deadline : Sec
  pend : Pending
  lastSample : Option Sec
  deriving DecidableEq, Repr

inductive Presence where
  | unknown | present | failed
  deriving DecidableEq, Repr

inductive InputSource where
  | live | held | substitute
  deriving DecidableEq, Repr

/-- A feed's input value with its source, present together (02 Table 2-5). -/
structure Input where
  value : Nat
  source : InputSource
  deriving DecidableEq, Repr

structure Feed where
  num : Nat
  st : FeedStatic
  presence : Presence
  low : Nat
  high : Nat
  input : Option Input
  stale : Bool
  treeInput : Option Nat
  deriving DecidableEq, Repr

/-! ### Calls and crews (07 R120, R129) -/

inductive CallKind where
  | escape | noSupply
  deriving DecidableEq, Repr

inductive CallState where
  | waiting | assigned | onSite | awaitingIsolation | madeSafe | closed
  deriving DecidableEq, Repr

structure Call where
  num : Nat
  arrival : Sec
  kind : CallKind
  seg : Nat
  key : Nat
  base : Nat
  eff : Nat
  state : CallState
  received : Sec
  deadline : Sec
  overdue : Bool
  repeats : Nat
  crew : Option Nat
  iso : Option Nat
  withdrawn : Bool
  deriving DecidableEq, Repr

inductive CrewState where
  | offShift | available | assigned | onSite
  deriving DecidableEq, Repr

structure Crew where
  num : Nat
  home : Option Nat
  state : CrewState
  call : Option Nat
  deriving DecidableEq, Repr

/-! ### Isolations (05 R88, R89) -/

inductive Role where
  | boundary | fallback
  deriving DecidableEq, Repr

inductive EntryStatus where
  | waiting | closed | bypassed | failed
  deriving DecidableEq, Repr

structure Entry where
  valve : Nat
  role : Role
  /-- The BOUNDARY valve a FALLBACK entry stands behind. -/
  behind : Option Nat
  status : EntryStatus
  deriving DecidableEq, Repr

inductive Stage where
  | closing | widening | held | failed | released
  deriving DecidableEq, Repr

structure Isolation where
  num : Nat
  target : Nat
  call : Option Nat
  plan : List Entry
  stage : Stage
  started : Sec
  held : Option Sec
  released : Bool
  deriving DecidableEq, Repr

/-! ### Watch screens (08 R142) -/

inductive Urgency where
  | urgent | routine
  deriving DecidableEq, Repr

structure Screen where
  num : Nat
  enabled : Bool
  urgency : Urgency
  /-- A home feed, or absent for ALL. -/
  scope : Option Nat
  care : CondSet
  required : CondSet
  matched : List Nat
  entered : List Nat
  left : List Nat
  deriving DecidableEq, Repr

/-! ### Engine (09 R147) -/

inductive EngineState where
  | empty | loading | verifying | live | maintenance | adoptPending
  deriving DecidableEq, Repr

/-- The network constants without the weather factor (00 Table 5). -/
structure Constants where
  attend1 : Nat
  attend2 : Nat
  attend3 : Nat
  attend4 : Nat
  cluster : Nat
  doubt : Nat
  verify : Nat
  stable : Nat
  anomaly : Nat
  deriving DecidableEq, Repr

inductive TableId where
  | segment | valve | point | feed
  deriving DecidableEq, Repr

inductive Direction where
  | write | read
  deriving DecidableEq, Repr

/-- A part of a loading record (11 Table 11-6). -/
inductive Part where
  | seg1 (homeFeed customers unitLoad : Nat)
  | seg2 (resistance : Nat)
  | seg3 (minimum warn hysteresis deviation : Nat) (extremity : Option Nat)
  | valve1 (kind : ValveKind) (sideA sideB : Nat)
  | valve2 (timeout : Nat) (fallbacks : List Nat)
  | point1 (kind : PointKind) (scaleLow span : Nat)
  | point2 (lockCount lossCount shift interval : Nat) (loss : LossBehaviour) (substitute high low hysteresis : Nat)
  | feed1 (point failBelow restoreAt failCount : Nat)
  deriving DecidableEq, Repr

/-- The load cursor (09 R149). -/
structure Cursor where
  table : TableId
  index : Nat
  counter : Nat
  /-- The parts written or read so far for the record at the cursor. -/
  parts : List Part
  dir : Direction
  deriving DecidableEq, Repr

structure Staging where
  topo : Topology
  cursor : Cursor
  deriving DecidableEq, Repr

/-- The reasons of an adoption conflict, in the order of 09 Table 9-4. -/
inductive ConflictReason where
  | segmentDeleted | valveDeleted | valveChanged | customers
  deriving DecidableEq, Repr

structure Conflict where
  ref : Ref
  reason : ConflictReason
  deriving DecidableEq, Repr

structure Engine where
  state : EngineState
  run : Sec
  offset : Sec
  consts : Constants
  weather : Nat
  staging : Option Staging
  conflict : Option Conflict
  deriving DecidableEq, Repr

/-! ### The records of all blocks -/

/-- Every record of the part and the counters that number records: all the state but the control link's. -/
structure Grid where
  engine : Engine
  segs : List Segment
  valves : List Valve
  points : List Point
  feeds : List Feed
  calls : List Call
  crews : List Crew
  isos : List Isolation
  screens : List Screen
  /-- The call number assigned last (07 R121). -/
  lastCall : Nat
  /-- The arrival counter (07 R121). -/
  arrival : Sec
  /-- The isolation number assigned last (05 R88). -/
  lastIso : Nat
  deriving DecidableEq, Repr

/-! ### Control link (10 R161 to R164) -/

/-- A complete frame without START, LENGTH and CHECK, which follow from these (11 Table 11-1). -/
structure Frame where
  kind : Byte
  tag : Byte
  payload : List Byte
  deriving DecidableEq, Repr

/-- The receiver: hunting, or within a frame with the bytes taken after START (10 R162). -/
inductive Receiver where
  | hunting
  | within (bytes : List Byte)
  deriving DecidableEq, Repr

/-- A notice: a reference to a record with that record's change set, bit n for the n-th kind of 11 Table 11-4. A record
has an entry exactly when its change set is not empty (10 R164), so the set is kept in the entry. -/
structure Notice where
  ref : Ref
  changes : BitVec 16
  deriving DecidableEq, Repr

structure Link where
  rx : Receiver
  holding : List Frame
  transmit : List Frame
  urgent : List Notice
  routine : List Notice
  /-- RATE1..0 as sampled at cold start. -/
  rate : BitVec 2
  deriving DecidableEq, Repr

/-- The output pins between steps (10 Table 10-1); true is high. -/
structure Pins where
  txd : Bool
  note : Bool
  alert : Bool
  deriving DecidableEq, Repr

structure State where
  grid : Grid
  link : Link
  pins : Pins
  /-- The MODEL's own: the frame bytes TRANSMIT_FRAME put on TXD last (log 4). -/
  sent : Option (List Byte)
  /-- Commands waiting, first in first out (log 1). -/
  pending : List Instr
  deriving DecidableEq, Repr

/-- The D740 has no fault that stops it: every request is answered and every expiry handled (00 "Outcomes that change
nothing", 10 R163). The type is closed and empty. -/
inductive Fault where
  deriving DecidableEq, Repr

/-- Why a command is not run. -/
inductive Refusal where
  /-- A command whose meaning is not written yet: raised by its arm of `exec` alone. It is a safe stop. No arm raises
  it in this model. -/
  | notModelled (mnemonic : String)
  deriving DecidableEq, Repr

/-- The defaults at cold start (00 Table 5). -/
def Constants.default : Constants where
  attend1 := 3600
  attend2 := 7200
  attend3 := 43200
  attend4 := 86400
  cluster := 3
  doubt := 3
  verify := 3600
  stable := 4
  anomaly := 4

/-- A watch screen at cold start (08 Table 8-2). -/
def Screen.reset (n : Nat) : Screen where
  num := n
  enabled := false
  urgency := .routine
  scope := none
  care := 0
  required := 0
  matched := []
  entered := []
  left := []

/-- The records at cold start: every table empty, the engine EMPTY, the sixteen screens disabled (09 R147). -/
def Grid.reset : Grid where
  engine :=
    { state := .empty, run := 0, offset := 0, consts := .default, weather := 1000, staging := none, conflict := none }
  segs := []
  valves := []
  points := []
  feeds := []
  calls := []
  crews := []
  isos := []
  screens := (List.range Config.screens).map Screen.reset
  lastCall := 0
  arrival := 0
  lastIso := 0

/-- The control link at cold start (10 R161), with the levels sampled on RATE1..0. -/
def Link.reset (rate : BitVec 2) : Link where
  rx := .hunting
  holding := []
  transmit := []
  urgent := []
  routine := []
  rate := rate

/-- TXD idle, NOTE and ALERT low (10 R161). -/
def Pins.reset : Pins where
  txd := true
  note := false
  alert := false

/-- The machine right after a cold start with RATE1..0 at 00 (log 5), no command waiting. -/
def State.reset : State where
  grid := .reset
  link := .reset 0
  pins := .reset
  sent := none
  pending := []

end Sys2Proof.Machine
end

