-- ==== Sys2Proof/Machine/Ops.lean ====
section
/-! DEFINITION. The named operations over the records and the notice list that every block shares: reaching a record by
number, the two clocks, posting a change, applying what an event posted, and answering a request. -/
namespace Sys2Proof.Machine

/-! ### Reaching a record -/

def Grid.seg? (g : Grid) (n : Nat) : Option Segment := g.segs.find? (·.num == n)
def Grid.valve? (g : Grid) (n : Nat) : Option Valve := g.valves.find? (·.num == n)
def Grid.point? (g : Grid) (n : Nat) : Option Point := g.points.find? (·.num == n)
def Grid.feed? (g : Grid) (n : Nat) : Option Feed := g.feeds.find? (·.num == n)
def Grid.call? (g : Grid) (n : Nat) : Option Call := g.calls.find? (·.num == n)
def Grid.crew? (g : Grid) (n : Nat) : Option Crew := g.crews.find? (·.num == n)
def Grid.iso? (g : Grid) (n : Nat) : Option Isolation := g.isos.find? (·.num == n)
def Grid.screen? (g : Grid) (n : Nat) : Option Screen := g.screens.find? (·.num == n)

/-! Changing the record of a number, in place. -/

def Grid.onSeg (n : Nat) (f : Segment → Segment) (g : Grid) : Grid :=
  { g with segs := g.segs.map fun r => if r.num = n then f r else r }
def Grid.onValve (n : Nat) (f : Valve → Valve) (g : Grid) : Grid :=
  { g with valves := g.valves.map fun r => if r.num = n then f r else r }
def Grid.onPoint (n : Nat) (f : Point → Point) (g : Grid) : Grid :=
  { g with points := g.points.map fun r => if r.num = n then f r else r }
def Grid.onFeed (n : Nat) (f : Feed → Feed) (g : Grid) : Grid :=
  { g with feeds := g.feeds.map fun r => if r.num = n then f r else r }
def Grid.onCall (n : Nat) (f : Call → Call) (g : Grid) : Grid :=
  { g with calls := g.calls.map fun r => if r.num = n then f r else r }
def Grid.onCrew (n : Nat) (f : Crew → Crew) (g : Grid) : Grid :=
  { g with crews := g.crews.map fun r => if r.num = n then f r else r }
def Grid.onIso (n : Nat) (f : Isolation → Isolation) (g : Grid) : Grid :=
  { g with isos := g.isos.map fun r => if r.num = n then f r else r }
def Grid.onScreen (n : Nat) (f : Screen → Screen) (g : Grid) : Grid :=
  { g with screens := g.screens.map fun r => if r.num = n then f r else r }

/-- Inserts a record into a list kept ascending by `key`. -/
def insertBy {α : Type} (key : α → Nat) (x : α) : List α → List α
  | [] => [x]
  | y :: ys => if key x ≤ key y then x :: y :: ys else y :: insertBy key x ys

/-- Sorts by ascending `key`, keeping the order of equal keys. -/
def sortBy {α : Type} (key : α → Nat) (l : List α) : List α := l.foldr (insertBy key) []

/-- Adds a number to an ascending set. -/
def insertNum (n : Nat) (l : List Nat) : List Nat := if n ∈ l then l else insertBy id n l

/-- Writes the entry of a key in an ascending association list. -/
def putKey {α : Type} (n : Nat) (x : α) (l : List (Nat × α)) : List (Nat × α) :=
  insertBy (·.1) (n, x) (l.filter (·.1 != n))

/-- Deletes the entry of a key. -/
def dropKey {α : Type} (n : Nat) (l : List (Nat × α)) : List (Nat × α) := l.filter (·.1 != n)

/-- The next number above `last` that no record holds, from 1 to `top` and round again; `fuel` bounds the numbers that
can be skipped (05 R88, 07 R121). -/
def nextNumber (top : Nat) (used : List Nat) : Nat → Nat → Nat
  | 0, last => last % top + 1
  | fuel + 1, last =>
    let n := last % top + 1
    if n ∈ used then nextNumber top used fuel n else n

/-! ### Clocks (09 R158) -/

/-- Run seconds. -/
def Grid.now (g : Grid) : Sec := g.engine.run

/-- Network time: run seconds plus the offset, modulo 2^32. -/
def Grid.net (g : Grid) : Sec := g.engine.run + g.engine.offset

/-! ### Engine state -/

/-- LIVE, MAINTENANCE or ADOPT-PENDING: the states in which resolutions and recomputations run (01 R14, 03 R49). -/
def EngineState.inService : EngineState → Bool
  | .live | .maintenance | .adoptPending => true
  | .empty | .loading | .verifying => false

/-- EMPTY or LOADING: the states in which no live table exists. -/
def EngineState.notLoaded : EngineState → Bool
  | .empty | .loading => true
  | .verifying | .live | .maintenance | .adoptPending => false

/-! ### The notice list (10 R164) -/

/-- The change kinds (11 Table 11-4). -/
inductive Change where
  | segSupply | segMesh | segBand | segAnomaly | segOutage | segRestore | segNoSupply | segCalls | segConditions | segParams
  | valveState | valveOrder | valveHolders | valveVerify | valveMotion
  | pointLock | pointAlarm | pointParams | pointPending
  | feedPresence | feedStale
  | callState | callGrade | callRepeat | callOverdue | callLink | callClosed
  | crewState
  | isoStage | isoPlan | isoLink | isoReleased
  | screenDefinition | screenEntered | screenLeft
  | engineState | engineConflict | engineCallRefused | engineConstants | engineClock | engineWeather
  deriving DecidableEq, Repr

/-- The kind of record a change is posted on (11 Table 11-4). -/
def Change.record : Change → RecordKind
  | .segSupply | .segMesh | .segBand | .segAnomaly | .segOutage | .segRestore | .segNoSupply | .segCalls
  | .segConditions | .segParams => .segment
  | .valveState | .valveOrder | .valveHolders | .valveVerify | .valveMotion => .valve
  | .pointLock | .pointAlarm | .pointParams | .pointPending => .point
  | .feedPresence | .feedStale => .feed
  | .callState | .callGrade | .callRepeat | .callOverdue | .callLink | .callClosed => .call
  | .crewState => .crew
  | .isoStage | .isoPlan | .isoLink | .isoReleased => .isolation
  | .screenDefinition | .screenEntered | .screenLeft => .screen
  | .engineState | .engineConflict | .engineCallRefused | .engineConstants | .engineClock | .engineWeather => .engine

/-- The bit of a change in its record's change set (11 Table 11-4, bit 0 first). -/
def Change.bit : Change → Nat
  | .segSupply => 0 | .segMesh => 1 | .segBand => 2 | .segAnomaly => 3 | .segOutage => 4 | .segRestore => 5
  | .segNoSupply => 6 | .segCalls => 7 | .segConditions => 8 | .segParams => 9
  | .valveState => 0 | .valveOrder => 1 | .valveHolders => 2 | .valveVerify => 3 | .valveMotion => 4
  | .pointLock => 0 | .pointAlarm => 1 | .pointParams => 2 | .pointPending => 3
  | .feedPresence => 0 | .feedStale => 1
  | .callState => 0 | .callGrade => 1 | .callRepeat => 2 | .callOverdue => 3 | .callLink => 4 | .callClosed => 5
  | .crewState => 0
  | .isoStage => 0 | .isoPlan => 1 | .isoLink => 2 | .isoReleased => 3
  | .screenDefinition => 0 | .screenEntered => 1 | .screenLeft => 2
  | .engineState => 0 | .engineConflict => 1 | .engineCallRefused => 2 | .engineConstants => 3 | .engineClock => 4
  | .engineWeather => 5

/-- The change set that holds one change. -/
def Change.mask (k : Change) : BitVec 16 := BitVec.ofNat 16 (2 ^ k.bit)

/-- What an event does to the notice list. -/
inductive Act where
  /-- Posts a change on a record, in a class. -/
  | post (change : Change) (num : Nat) (cls : Urgency)
  /-- Removes a deleted record's entry with its change set (10 R164). -/
  | drop (ref : Ref)
  /-- Takes kinds out of a record's change set (08 R145). -/
  | unmark (ref : Ref) (kinds : BitVec 16)
  deriving DecidableEq, Repr

def noticed (r : Ref) (l : List Notice) : Bool := l.any (·.ref == r)

/-- The change set of a record: that of its entry, or empty. -/
def changeSet (r : Ref) (l : Link) : BitVec 16 :=
  match (l.urgent ++ l.routine).find? (·.ref == r) with
  | some e => e.changes
  | none => 0

def addKinds (r : Ref) (kinds : BitVec 16) (l : List Notice) : List Notice :=
  l.map fun e => if e.ref = r then { e with changes := e.changes ||| kinds } else e

def removeEntry (r : Ref) (l : List Notice) : List Notice := l.filter (·.ref != r)

/-- Posting: the kind joins the change set; an entry is appended, promoted to the urgent class or left in place, and
never moves to the routine class (10 R164). -/
def Link.post (r : Ref) (kinds : BitVec 16) (c : Urgency) (l : Link) : Link :=
  if noticed r l.urgent then { l with urgent := addKinds r kinds l.urgent }
  else
    match c with
    | .urgent =>
      { l with
        urgent := l.urgent ++ [⟨r, changeSet r l ||| kinds⟩]
        routine := removeEntry r l.routine }
    | .routine =>
      if noticed r l.routine then { l with routine := addKinds r kinds l.routine }
      else { l with routine := l.routine ++ [⟨r, kinds⟩] }

/-- Takes kinds out of a record's change set; an entry left without a kind goes (10 R164). -/
def clearKinds (r : Ref) (kinds : BitVec 16) (l : List Notice) : List Notice :=
  (l.map fun e => if e.ref = r then { e with changes := e.changes &&& ~~~kinds } else e).filter (·.changes != 0)

def Link.act (l : Link) : Act → Link
  | .post k n c => l.post ⟨k.record, n⟩ k.mask c
  | .drop r => { l with urgent := removeEntry r l.urgent, routine := removeEntry r l.routine }
  | .unmark r kinds => { l with urgent := clearKinds r kinds l.urgent, routine := clearKinds r kinds l.routine }

/-- NOTE and ALERT follow the list at once (10 R164). -/
def Pins.follow (l : Link) (p : Pins) : Pins :=
  { p with note := !(l.urgent.isEmpty && l.routine.isEmpty), alert := !l.urgent.isEmpty }

/-- The one way a notice list changes: the link is replaced and the two lines follow it. -/
def State.withLink (l : Link) (s : State) : State := { s with link := l, pins := s.pins.follow l }

/-- One act on the notice list, with the two lines following it. -/
def State.act (s : State) (a : Act) : State := s.withLink (s.link.act a)

/-- The end of an event: its records stand, and what it posted joins the notice list in order. -/
def State.conclude (g : Grid) (acts : List Act) (s : State) : State := acts.foldl State.act { s with grid := g }

/-! ### Answers -/

/-- The outcome codes (11 Table 11-3). -/
inductive Code where
  | done | noChange | merged | notLive | busy | held | faultPending | wrongState | full | unknown | range | lowPressure
  | engaged | invalid | sequence
  deriving DecidableEq, Repr

/-- An outcome with the fields that follow it in the reply. -/
structure Reply where
  code : Code
  body : List Byte
  deriving DecidableEq, Repr

/-- What a request of a block leaves: the records, what it posted, and its reply. -/
structure Served where
  grid : Grid
  acts : List Act
  reply : Reply
  deriving DecidableEq, Repr

/-- A refused request: nothing changes, and the reply carries the outcome code alone (11 R170). -/
def refuse (g : Grid) (c : Code) : Served := ⟨g, [], ⟨c, []⟩⟩

/-- A request that changes nothing and is answered with fields. -/
def tell (g : Grid) (c : Code) (body : List Byte) : Served := ⟨g, [], ⟨c, body⟩⟩

/-- The handling of a request at the records, made the handling of it at the machine. -/
def atGrid (h : Grid → Served) (s : State) : State × Reply :=
  (s.conclude (h s.grid).grid (h s.grid).acts, (h s.grid).reply)

end Sys2Proof.Machine
end

