-- ==== Sys2Proof/Machine/Flags.lean ====
section
/-! DEFINITION. The marks and conditions that are read from the records: passability, timers that are due, the STALE
mark, customers on supply, the effective grade and the condition vector. -/
namespace Sys2Proof.Machine

/-! ### Timers (09 R158) -/

/-- The place of a time relative to now, as a number that rises with time: times up to 2^31 seconds ahead of and behind
run seconds stand in their order, across the wrap too (log 7). -/
def timeKey (now t : Sec) : Nat := (t - now + 0x80000000#32).toNat

/-- Run seconds have reached the time: it is not later than now. -/
def reached (now t : Sec) : Bool := decide (timeKey now t ≤ 0x80000000)

/-- The earlier of two times. -/
def earlier (now a b : Sec) : Sec := if timeKey now b < timeKey now a then b else a

/-- A timer that may be stopped has run out. -/
def expired (now : Sec) : Option Sec → Bool
  | some t => reached now t
  | none => false

/-! ### Valves -/

/-- Passability (01 Table 1-6). -/
def Valve.passable (v : Valve) : Bool :=
  match v.state with
  | .opened => true
  | .closing => true
  | .closed => false
  | .opening => false
  | .stuck => v.known == .opened

/-- The normal position of a kind (01 Table 1-4). -/
def ValveKind.normal : ValveKind → Position
  | .line => .opened
  | .tie => .closed
  | .outlet => .opened

def ValveStatic.normal (v : ValveStatic) : Position := v.kind.normal

/-- The node on side B (01 R1). -/
def ValveStatic.nodeB (v : ValveStatic) : Node :=
  match v.kind with
  | .outlet => .feed v.sideB
  | .line | .tie => .seg v.sideB

/-- The valve touches the segment: it names it as side A or side B (01 R1). -/
def ValveStatic.touches (v : ValveStatic) (seg : Nat) : Bool := v.sideA == seg || v.nodeB == .seg seg

/-- The node at the other side of a valve that touches the segment. -/
def ValveStatic.across (v : ValveStatic) (seg : Nat) : Option Node :=
  if v.sideA = seg then some v.nodeB
  else if v.nodeB = .seg seg then some (.seg v.sideA)
  else none

/-- The touching list of a segment, in ascending valve number (01 R1). -/
def Grid.touching (g : Grid) (seg : Nat) : List Valve := g.valves.filter fun v => v.st.touches seg

/-- No isolation and no operator hold keeps the valve closed (04 section 4.2). -/
def Valve.free (v : Valve) : Bool := v.isos.isEmpty && v.hold == .none

/-- Some valve has an outstanding order. -/
def Grid.ordered (g : Grid) : List Valve := g.valves.filter (·.order.isSome)

/-! ### Segments -/

def Supply.isFed : Supply → Bool
  | .fed _ => true
  | .unknown => false
  | .unfed => false

def Supply.feed? : Supply → Option Nat
  | .fed l => some l.feed
  | .unknown => none
  | .unfed => none

/-- The band, or none (03 R46). -/
def Segment.band (s : Segment) : Option Band := s.est.level.map (·.band)

/-- The off count, 0 without an outage part (06 R107). -/
def Segment.off (s : Segment) : Nat :=
  match s.outage with
  | some p => p.off
  | none => 0

/-- Customers on supply (06 R107). -/
def Segment.onSupply (s : Segment) : Nat := s.st.customers - s.unrelit - s.off

/-- The STALE mark: the segment is FED and the stale flag of its supplying feed is set (03 R48). -/
def Grid.staleSeg (g : Grid) (s : Segment) : Bool :=
  match s.supply.feed? with
  | some f => g.feeds.any fun fd => fd.num == f && fd.stale
  | none => false

/-! ### Calls -/

/-- WAITING, ASSIGNED, ON-SITE or AWAITING-ISOLATION (07 R120). -/
def CallState.isOpen : CallState → Bool
  | .waiting | .assigned | .onSite | .awaitingIsolation => true
  | .madeSafe | .closed => false

/-- The deadline timer runs (07 R120). -/
def Call.timerRuns (c : Call) : Bool := (c.state == .waiting || c.state == .assigned) && !c.overdue

/-- CLUSTER holds (07 R137). -/
def clustered (k : Constants) (s : Segment) : Bool := decide (k.cluster ≤ s.escapes)

/-- The effective grade (07 R126): 0 when overdue, else base less a and plus u, clamped to 1..4. -/
def effectiveGrade (k : Constants) (seg : Option Segment) (c : Call) : Nat :=
  if c.overdue then 0
  else
    match seg with
    | some s =>
      let a := if s.est.anomaly || clustered k s then 1 else 0
      let u := if s.supply = .unfed then 1 else 0
      min 4 (max 1 (c.base + u - a))
    | none => min 4 (max 1 c.base)

/-! ### The condition vector (08 Table 8-1) -/

/-- The thirteen conditions in table order. -/
inductive Condition where
  | fed | isolated | outage | relighting | marginLow | marginShort | stale | anomaly | meshed | cluster | supplyDoubt
  | overdue | unverified
  deriving DecidableEq, Repr

def Condition.all : List Condition :=
  [.fed, .isolated, .outage, .relighting, .marginLow, .marginShort, .stale, .anomaly, .meshed, .cluster, .supplyDoubt,
    .overdue, .unverified]

/-- The bit of a condition (11 R171: position in Table 8-1, bit 0 is FED). -/
def Condition.bit : Condition → Nat
  | .fed => 0 | .isolated => 1 | .outage => 2 | .relighting => 3 | .marginLow => 4 | .marginShort => 5 | .stale => 6
  | .anomaly => 7 | .meshed => 8 | .cluster => 9 | .supplyDoubt => 10 | .overdue => 11 | .unverified => 12

/-- The number of valves of the touching list flagged UNVERIFIED (08 R140). -/
def Grid.unverifiedCount (g : Grid) (seg : Nat) : Nat := ((g.touching seg).filter (·.unverified)).length

/-- When each condition of a segment holds (08 Table 8-1, column "Holds while"). -/
def Grid.holds (g : Grid) (s : Segment) : Condition → Bool
  | .fed => s.supply.isFed
  | .isolated => g.isos.any fun i => i.target == s.num && !i.released
  | .outage => s.outage.isSome
  | .relighting => s.outage.any fun p => p.stage == .relighting
  | .marginLow => s.band == some .low
  | .marginShort => s.band == some .short
  | .stale => g.staleSeg s
  | .anomaly => s.est.anomaly
  | .meshed => s.meshed
  | .cluster => clustered g.engine.consts s
  | .supplyDoubt => decide (g.engine.consts.doubt ≤ s.noSupply) && s.supply.isFed
  | .overdue => g.calls.any fun c => c.seg == s.num && c.state.isOpen && c.overdue
  | .unverified => decide (0 < g.unverifiedCount s.num)

/-- The vector of a segment as the records stand. -/
def Grid.vector (g : Grid) (s : Segment) : CondSet :=
  Condition.all.foldl (fun v c => if g.holds s c then v ||| BitVec.ofNat 13 (2 ^ c.bit) else v) 0

end Sys2Proof.Machine
end

