-- ==== Sys2Proof/Machine/Records.lean ====
section
/-! DEFINITION. The records as they enter the live tables (the commit values of every block), and the working state of
one event: the records, what has been posted, and what still has to be recomputed. -/
namespace Sys2Proof.Machine

/-- The estimate fields of a segment that is not FED (03 R46, R53). -/
def Estimate.blank : Estimate where
  demand := 0
  flow := 0
  drop := 0
  level := none
  anomaly := false
  outside := none
  inside := none

/-- A segment at commit (01 R3, 03 R46, 06 R106, 07 R137, 08 R139). -/
def newSegment (n : Nat) (st : SegStatic) : Segment where
  num := n
  st := st
  supply := .unknown
  meshed := false
  est := .blank
  outage := none
  unrelit := 0
  summary := none
  escapes := 0
  noSupply := 0
  conds := 0
  unverified := 0

/-- The state a valve at rest in a position has. -/
def Position.rest : Position → ValveState
  | .opened => .opened
  | .closed => .closed

/-- A valve at commit (04 Table 4-1); new at an adoption it has its UNVERIFIED flag set (04 R64). -/
def newValve (unverified : Bool) (n : Nat) (st : ValveStatic) : Valve where
  num := n
  st := st
  state := st.normal.rest
  known := st.normal
  isos := []
  hold := .none
  order := none
  counter := 0
  reopen := false
  verified := false
  verifyDeadline := none
  unverified := unverified
  uncommanded := false
  fault := none
  moving := false

/-- A duration in whole seconds, as it is added to run seconds. -/
def secs (n : Nat) : Sec := BitVec.ofNat 32 n

/-- A point entering the live table (02 Table 2-2). -/
def newPoint (now : Sec) (n : Nat) (st : PointStatic) : Point where
  num := n
  st := st
  lock := .seeking
  good := 0
  miss := 0
  latest := none
  smoothed := none
  fresh := false
  alarm := .normal
  deadline := now + secs st.interval
  pend := {}
  lastSample := none

/-- The takeover of a feed's input (02 Table 2-7); a point that has never locked has no smoothed value, and with it the
table gives the never-locked case of R41. -/
def takeover (p : Point) : Option Input :=
  match p.st.loss with
  | .hold => p.smoothed.map fun v => ⟨v, .held⟩
  | .substitute => some ⟨p.st.substitute, .substitute⟩
  | .drop => none

/-- The input a point's state gives (02 R38): its smoothed value when LOCKED, else the takeover. -/
def inputFrom (p : Point) : Option Input :=
  if p.lock = .locked then p.smoothed.map fun v => ⟨v, .live⟩ else takeover p

/-- A feed entering the live table (02 Table 2-5, R38): its input and stale flag follow its point's state. -/
def newFeed (points : List Point) (n : Nat) (st : FeedStatic) : Feed where
  num := n
  st := st
  presence := .unknown
  low := 0
  high := 0
  input := (points.find? (·.num == st.point)).bind inputFrom
  stale := !(points.find? (·.num == st.point)).any fun p => p.lock == .locked
  treeInput := none

/-- A crew at commit (07 Table 7-2). -/
def newCrew (n : Nat) : Crew where
  num := n
  home := none
  state := .offShift
  call := none

/-- Why a tree is recomputed (03 Table 3-2). -/
inductive TreeCause where
  | sample | takeover | customers | weather | amend | restructured | adoption
  deriving DecidableEq, Repr

/-- The working state of one event. -/
structure Work where
  grid : Grid
  /-- The records as they stood when the event last posted their changes (log 10). -/
  seen : Grid
  /-- What has been posted, in order (log 9). -/
  acts : List Act
  /-- The trees reached, by feed, with the causes that reached them (03 R50). -/
  causes : List (Nat × TreeCause)
  /-- Segments whose outage part entered REPRESSURIZING in this event (06 R111). -/
  regained : List Nat
  /-- An adoption happened: every enabled screen re-evaluates every segment (08 R142). -/
  adopted : Bool
  deriving DecidableEq, Repr

/-- An event begins with the records as they stand. -/
def Work.start (g : Grid) : Work := ⟨g, g, [], [], [], false⟩

def Work.on (f : Grid → Grid) (w : Work) : Work := { w with grid := f w.grid }
def Work.post (k : Change) (n : Nat) (c : Urgency) (w : Work) : Work := { w with acts := w.acts ++ [.post k n c] }
def Work.reach (f : Nat) (c : TreeCause) (w : Work) : Work := { w with causes := w.causes ++ [(f, c)] }

/-- Reaches the tree of a segment, when it is FED (03 Table 3-2). -/
def Work.reachSeg (n : Nat) (c : TreeCause) (w : Work) : Work :=
  match (w.grid.seg? n).bind fun s => s.supply.feed? with
  | some f => w.reach f c
  | none => w

end Sys2Proof.Machine
end

