-- ==== Sys2Proof/Machine/CallDesk.lean ====
section
/-! DEFINITION. The call desk's shared operations (07): the open call counts, the derivation of grades, the dispatch
queue and pass, and the changes of a call and its crew. -/
namespace Sys2Proof.Machine

/-- The attend target of a grade (00 Table 5). -/
def Constants.attend (k : Constants) (grade : Nat) : Nat :=
  match grade with
  | 0 | 1 => k.attend1
  | 2 => k.attend2
  | 3 => k.attend3
  | _ => k.attend4

/-- Open calls of a kind on a segment (07 R137). -/
def Grid.openCalls (g : Grid) (kind : CallKind) (seg : Nat) : Nat :=
  (g.calls.filter fun c => c.state.isOpen && c.kind == kind && c.seg == seg).length

/-- The two counts of every segment, as the open calls stand (07 R137). -/
def Grid.recount (g : Grid) : Grid :=
  { g with
    segs := g.segs.map fun s =>
      { s with escapes := g.openCalls .escape s.num, noSupply := g.openCalls .noSupply s.num } }

/-- The effective grade of every open call, as its inputs stand (07 R127); that of a call no longer open stands as it was
(log 35). -/
def Grid.regrade (g : Grid) : Grid :=
  { g with
    calls := g.calls.map fun c =>
      if c.state.isOpen then { c with eff := effectiveGrade g.engine.consts (g.seg? c.seg) c } else c }

/-! ### The dispatch queue and arbiter -/

/-- The order of the dispatch queue (07 R128): effective grade, then deadline, then arrival sequence. -/
def ahead (now : Sec) (a b : Call) : Bool :=
  if a.eff ≠ b.eff then decide (a.eff < b.eff)
  else if timeKey now a.deadline ≠ timeKey now b.deadline then decide (timeKey now a.deadline < timeKey now b.deadline)
  else decide (a.arrival.toNat ≤ b.arrival.toNat)

def queueInsert (now : Sec) (c : Call) : List Call → List Call
  | [] => [c]
  | d :: ds => if ahead now c d then c :: d :: ds else d :: queueInsert now c ds

/-- The dispatch queue: the WAITING calls in order (07 R128). -/
def Grid.queue (g : Grid) : List Call := (g.calls.filter fun c => c.state == .waiting).foldr (queueInsert g.now) []

/-- The crew the arbiter chooses for a call (07 R130): the lowest-numbered AVAILABLE crew of the segment's home feed,
else the lowest-numbered AVAILABLE crew. -/
def Grid.choose (g : Grid) (c : Call) : Option Crew :=
  let free := g.crews.filter fun k => k.state == .available
  let home := (g.seg? c.seg).map fun s => s.st.homeFeed
  (free.find? fun k => home.isSome && k.home == home).or free.head?

/-- The call becomes ASSIGNED and names the crew; the crew becomes ASSIGNED and names the call (07 R130, R131). -/
def Grid.handOut (call crew : Nat) (g : Grid) : Grid :=
  (g.onCall call fun c => { c with state := .assigned, crew := some crew }).onCrew crew fun k =>
    { k with state := .assigned, call := some call }

/-- The hand-outs of a dispatch pass (07 R130): the head of the queue gets its crew, until no WAITING call or no
AVAILABLE crew remains. Each takes one call from the queue, so `fuel` calls bound the pass. -/
def dispatch : Nat → Grid → Grid
  | 0, g => g
  | fuel + 1, g =>
    match g.queue.head? with
    | none => g
    | some c =>
      match g.choose c with
      | none => g
      | some k => dispatch fuel (g.handOut c.num k.num)

/-- A dispatch pass (07 R130). -/
def Grid.dispatchPass (g : Grid) : Grid := dispatch g.calls.length g

/-! ### Changes of a call -/

/-- A crew whose call has ended becomes AVAILABLE and names no call. -/
def Grid.freeCrew (n : Option Nat) (g : Grid) : Grid :=
  match n with
  | some n => g.onCrew n fun k => { k with state := .available, call := none }
  | none => g

/-- The call becomes MADE-SAFE; its crew becomes AVAILABLE, and both crew fields are cleared (07 R132, R134). -/
def Grid.makeSafe (call : Nat) (g : Grid) : Grid :=
  (g.freeCrew ((g.call? call).bind fun c => c.crew)).onCall call fun c => { c with state := .madeSafe, crew := none }

/-- The call becomes overdue, with effective grade 0 (07 R136). -/
def Call.becomeOverdue (c : Call) : Call := { c with overdue := true, eff := 0 }

/-- The call becomes overdue when its timer runs and its deadline is not later than run seconds (07 R123, R135,
R136). -/
def Call.overdueIfPast (now : Sec) (c : Call) : Call :=
  if c.timerRuns && reached now c.deadline then c.becomeOverdue else c

/-- A withdrawal (07 R135): back to WAITING without a crew, marked, and overdue at once when the deadline is past. -/
def Call.withdraw (now : Sec) (c : Call) : Call :=
  ({ c with state := .waiting, crew := none, withdrawn := true } : Call).overdueIfPast now

/-- The isolation a call names loses its link to it (05 R100). -/
def Grid.unlinkIso (call : Nat) (g : Grid) : Grid :=
  { g with isos := g.isos.map fun i => if i.call = some call then { i with call := none } else i }

/-- A call closes (07 R133): its crew is freed, its link dropped on both sides. -/
def Grid.closeCall (call : Nat) (g : Grid) : Grid :=
  ((g.freeCrew ((g.call? call).bind fun c => c.crew)).onCall call
    fun c => { c with state := .closed, crew := none, iso := none }).unlinkIso call

/-- The call desk's last part of every event: counts, then grades, then one dispatch pass (07 R127, R130, R137;
log 11, 12). A call that its isolation's entry into HELD has made MADE-SAFE in this event keeps its grade (log 36). -/
def Work.desk (w : Work) : Work := w.on fun g => g.recount.regrade.dispatchPass

end Sys2Proof.Machine
end

