-- ==== Sys2Proof/Machine/Valves.lean ====
section
/-! DEFINITION. The valve controller's shared operations on one valve (04): orders, holders, entering a state, and the
handling of a field report. -/
namespace Sys2Proof.Machine

/-- What the valve controller reads of the engine: run seconds, network time and the verify interval. -/
structure Ctx where
  now : Sec
  net : Sec
  verify : Nat
  deriving DecidableEq, Repr

def Grid.ctx (g : Grid) : Ctx := ⟨g.now, g.net, g.engine.consts.verify⟩

/-! ### Entering a state (04 R65, R79) -/

/-- At rest in OPEN: known OPEN, no order, no verify deadline, not moving. -/
def Valve.enterOpen (v : Valve) : Valve :=
  { v with state := .opened, known := .opened, order := none, verifyDeadline := none, moving := false }

/-- At rest in CLOSED: known CLOSED, no order, the verify deadline set, not moving. -/
def Valve.enterClosed (c : Ctx) (v : Valve) : Valve :=
  { v with state := .closed, known := .closed, order := none, verifyDeadline := some (c.now + secs c.verify),
           moving := false }

/-- Entry into STUCK with a known position and a fault latch: no order, no verify deadline, not moving (04 R79). -/
def Valve.enterStuck (c : Ctx) (known : Position) (kind : FaultKind) (v : Valve) : Valve :=
  { v with state := .stuck, known := known, order := none, verifyDeadline := none, moving := false,
           fault := some ⟨kind, c.net⟩ }

/-! ### Orders (04 R68) -/

/-- Issues an order, superseding one outstanding: the counter advances, the valve becomes CLOSING or OPENING, and an
OPEN order clears the reopen-pending mark and the uncommanded mark (R68, R77). -/
def Valve.issue (c : Ctx) (target : Position) (v : Valve) : Valve :=
  let n := (v.counter + 1) % 256
  let v' :=
    { v with
      counter := n
      order := some ⟨n, target, c.net, c.now + secs v.st.timeout⟩
      verifyDeadline := none
      moving := false }
  match target with
  | .closed => { v' with state := .closing, known := .opened }
  | .opened => { v' with state := .opening, known := .closed, reopen := false, uncommanded := false }

/-! ### Holders (04 R66, R67) -/

/-- A reason to keep a valve closed. -/
inductive Holder where
  | isolation (num : Nat)
  | plain
  | timed (expiry : Sec)
  deriving DecidableEq, Repr

/-- A timed hold becomes plain. -/
def OperatorHold.untimed : OperatorHold → OperatorHold
  | .none => .none
  | .plain => .plain
  | .timed _ => .plain

/-- The holder set with one more holder: a timed hold becomes plain (04 R66). -/
def Valve.withHolder (h : Holder) (v : Valve) : Valve :=
  match h with
  | .isolation n => { v with isos := insertNum n v.isos, hold := v.hold.untimed }
  | .plain => { v with hold := .plain }
  | .timed e => { v with hold := .timed e }

/-- Adding a holder (04 R66): reopen-pending and the uncommanded mark are cleared; an OPEN or OPENING valve is ordered
closed, any other keeps its state and order. -/
def Valve.addHolder (c : Ctx) (h : Holder) (v : Valve) : Valve :=
  let v' := { v.withHolder h with reopen := false, uncommanded := false }
  match v.state with
  | .opened | .opening => v'.issue c .closed
  | .closing | .closed | .stuck => v'

/-- What follows when the holder set has become empty by the operator (04 Table 4-2). -/
def Valve.freedByOperator (c : Ctx) (v : Valve) : Valve :=
  if v.free then
    match v.state with
    | .closed => v.issue c .opened
    | .closing => { v with reopen := true }
    | .opened | .opening | .stuck => v
  else v

/-- Removing the operator hold, by VALVE-OPEN or its expiry (04 R67). -/
def Valve.dropHold (c : Ctx) (v : Valve) : Valve := ({ v with hold := .none } : Valve).freedByOperator c

/-- Removing an isolation (04 R67): only a valve whose normal position is OPEN reopens. -/
def Valve.dropIso (c : Ctx) (n : Nat) (v : Valve) : Valve :=
  let v' := { v with isos := v.isos.filter (· != n) }
  if v.isos.contains n && v.st.normal == .opened then v'.freedByOperator c else v'

/-! ### Reports (04 R75 to R78) -/

/-- The four reports of VALVE-REPORT, in the order of 11 Table 11-5. -/
inductive Report where
  | opened | closed | moving | fault
  deriving DecidableEq, Repr

/-- A report in VERIFYING (04 R75). -/
def Valve.reportVerifying (c : Ctx) (r : Report) (v : Valve) : Valve :=
  let v' := { v with verified := true }
  match r with
  | .opened =>
    { v' with state := .opened, known := .opened, fault := none, unverified := false, verifyDeadline := none }
  | .closed =>
    { v' with state := .closed, known := .closed, fault := none, unverified := false,
              verifyDeadline := some (c.now + secs c.verify) }
  | .moving | .fault =>
    { v' with state := .stuck, fault := some ⟨.fieldFault, c.net⟩, verifyDeadline := none }

/-- The reopen test at a closing completion (04 R76). -/
def Valve.reopenTest (c : Ctx) (v : Valve) : Valve := if v.reopen && v.free then v.issue c .opened else v

/-- A report in LIVE, MAINTENANCE or ADOPT-PENDING (04 Tables 4-4 and 4-5, R78). -/
def Valve.report (c : Ctx) (r : Report) (v : Valve) : Valve :=
  match v.state, r with
  | .closing, .closed => ({ v.enterClosed c with unverified := false } : Valve).reopenTest c
  | .closing, .opened => v
  | .closing, .moving => { v with moving := true }
  | .closing, .fault => v.enterStuck c .opened .fieldFault
  | .opening, .opened => { v.enterOpen with unverified := false }
  | .opening, .closed => v
  | .opening, .moving => { v with moving := true }
  | .opening, .fault => v.enterStuck c .closed .fieldFault
  | .opened, .opened => { v with unverified := false, moving := false }
  | .opened, .closed => { v.enterClosed c with uncommanded := true, unverified := false }
  | .opened, .moving => { v with moving := true }
  | .opened, .fault => v.enterStuck c .opened .fieldFault
  | .closed, .closed =>
    { v with verifyDeadline := some (c.now + secs c.verify), unverified := false, moving := false }
  | .closed, .opened => v.enterStuck c .opened .positionLost
  | .closed, .moving => v.enterStuck c .opened .positionLost
  | .closed, .fault => v.enterStuck c .closed .fieldFault
  | .stuck, .opened => { v with known := .opened }
  | .stuck, .closed => { v with known := .closed }
  | .stuck, .moving => v
  | .stuck, .fault => v

/-! ### Clearing a fault (04 R74) -/

/-- CLEAR-FAULT on a STUCK valve: the latch and the uncommanded mark go, the valve takes the declared position, and its
holders or its reopen-pending mark are served. -/
def Valve.clearFault (c : Ctx) (declared : Position) (v : Valve) : Valve :=
  let v' := { v with fault := none, uncommanded := false }
  match declared with
  | .closed => (v'.enterClosed c).reopenTest c
  | .opened =>
    let o := { v'.enterOpen with reopen := false }
    if o.free then o else o.issue c .closed

/-! ### Timers (04 R80 to R83) -/

/-- An outstanding order's deadline has been reached (04 R80): STUCK with TIMEOUT, the known position kept. -/
def Valve.timeOut (c : Ctx) (v : Valve) : Valve := v.enterStuck c v.known .timeout

/-- The expiry of a timed hold, if the valve has one. -/
def OperatorHold.expiry? : OperatorHold → Option Sec
  | .timed e => Option.some e
  | .none => Option.none
  | .plain => Option.none

/-! ### Entry to live service (04 R87) -/

/-- At FORCE-LIVE a valve without the verified mark takes its normal position and is marked UNVERIFIED. -/
def Valve.forceNormal (v : Valve) : Valve :=
  if v.verified then v
  else
    { v with state := v.st.normal.rest, known := v.st.normal, fault := none, verifyDeadline := none, unverified := true }

end Sys2Proof.Machine
end

