-- ==== Sys2Proof/Machine/Isolation.lean ====
section
/-! DEFINITION. The isolation unit's shared operations (05): plan entries, sticking and widening, the stage, the linked
call, and what the valve controller hands on. -/
namespace Sys2Proof.Machine

/-! ### Plan entries (05 R89) -/

def Isolation.holds (i : Isolation) (valve : Nat) : Bool := i.plan.any fun e => e.valve == valve

def Isolation.entry? (i : Isolation) (valve : Nat) : Option Entry := i.plan.find? fun e => e.valve == valve

/-- Marks the entry of a valve. -/
def Isolation.mark (valve : Nat) (st : EntryStatus) (i : Isolation) : Isolation :=
  { i with plan := i.plan.map fun e => if e.valve = valve then { e with status := st } else e }

/-- The isolation becomes a holder of the valve (04 R66). -/
def Grid.holdValve (iso valve : Nat) (g : Grid) : Grid := g.onValve valve (Valve.addHolder g.ctx (.isolation iso))

/-- The status of a FALLBACK entry, from its valve's state after the addition (05 R97). -/
def fallbackStatus : ValveState → EntryStatus
  | .closed => .closed
  | .stuck => .failed
  | .opened => .waiting
  | .closing => .waiting
  | .opening => .waiting

/-- Widening by one fallback valve behind a bypassed valve (05 R97): skipped when it is in the plan already or four
stand behind, else held and appended. -/
def Grid.widenBy (iso behind : Nat) (g : Grid) (valve : Nat) : Grid :=
  match g.iso? iso with
  | none => g
  | some i =>
    if i.holds valve then g
    else if Config.fallbacks ≤ (i.plan.filter fun e => e.behind == some behind).length then g
    else
      let g' := g.holdValve iso valve
      match g'.valve? valve with
      | none => g
      | some v =>
        g'.onIso iso fun i => { i with plan := i.plan ++ [⟨valve, .fallback, some behind, fallbackStatus v.state⟩] }

/-- A plan valve has become STUCK (05 R96): BYPASSED with widening for a BOUNDARY valve that names fallbacks, else
FAILED. -/
def Grid.entryStuck (iso valve : Nat) (g : Grid) : Grid :=
  match (g.iso? iso).bind fun i => i.entry? valve with
  | none => g
  | some e =>
    let fallbacks := ((g.valve? valve).map fun v => v.st.fallbacks).getD []
    if e.role = .boundary ∧ fallbacks ≠ [] then
      fallbacks.foldl (Grid.widenBy iso valve) (g.onIso iso (Isolation.mark valve .bypassed))
    else g.onIso iso (Isolation.mark valve .failed)

/-! ### The stage (05 R90, R91) -/

/-- The stage the entries give (05 R90). -/
def stageOf (plan : List Entry) : Stage :=
  if plan.any fun e => e.status == .failed then .failed
  else if plan.any fun e => e.status == .waiting then
    if plan.any fun e => e.status == .bypassed then .widening else .closing
  else .held

/-- The isolation has entered HELD: a linked call in AWAITING-ISOLATION becomes MADE-SAFE (07 R134). -/
def Grid.heldHandOff (call : Option Nat) (g : Grid) : Grid :=
  match call.bind g.call? with
  | some c => if c.state = .awaitingIsolation then g.makeSafe c.num else g
  | none => g

/-- The stage is derived afresh (05 R90), the held time follows it, and entry into HELD is handed to the call desk. -/
def Grid.restage (iso : Nat) (g : Grid) : Grid :=
  match g.iso? iso with
  | none => g
  | some i =>
    let st := stageOf i.plan
    if i.released || i.stage == st then g
    else
      let g' := g.onIso iso fun i => { i with stage := st, held := if st = .held then some g.net else none }
      if st = .held then g'.heldHandOff i.call else g'

/-! ### Hand-offs of the valve controller (04 R85; 05 R95, R96, R98) -/

/-- One isolation takes the hand-offs of one event on a plan valve: an entry into STUCK, a CLEAR-FAULT with its
declared position, or an entry into CLOSED. -/
def Grid.takeHandOff (before after : Valve) (cleared : Option Position) (g : Grid) (iso : Nat) : Grid :=
  if before.state ≠ .stuck ∧ after.state = .stuck then g.entryStuck iso after.num
  else
    match cleared, (g.iso? iso).bind fun i => i.entry? after.num with
    | some .closed, some _ => g.onIso iso (Isolation.mark after.num .closed)
    | some .opened, some e =>
      if e.status = .bypassed ∨ e.status = .failed then g.onIso iso (Isolation.mark after.num .waiting) else g
    | none, some e =>
      if before.state ≠ .closed ∧ after.state = .closed ∧ e.status = .waiting then
        g.onIso iso (Isolation.mark after.num .closed)
      else g
    | _, none => g

/-- After an event on a valve, each isolation in its holder set takes the hand-offs, and then each stage is derived
once (05 section 5.4). -/
def Grid.handToIsolations (before : Valve) (cleared : Option Position) (g : Grid) : Grid :=
  match g.valve? before.num with
  | none => g
  | some after =>
    let g' := after.isos.foldl (Grid.takeHandOff before after cleared) g
    after.isos.foldl (fun g n => g.restage n) g'

/-- The valve controller handles an event on one valve and hands on what it did. -/
def Grid.valveEvent (n : Nat) (cleared : Option Position) (f : Valve → Valve) (g : Grid) : Grid :=
  match g.valve? n with
  | some v => (g.onValve n f).handToIsolations v cleared
  | none => g

/-! ### The linked call (05 R94, 07 R134) -/

/-- The link made with an ON-SITE call: AWAITING-ISOLATION, and on to MADE-SAFE when the isolation is HELD. -/
def Grid.awaitIsolation (iso call : Nat) (g : Grid) : Grid :=
  let g' := g.onCall call fun c => { c with state := .awaitingIsolation, iso := some iso }
  match g'.iso? iso with
  | some i => if i.stage = .held then g'.heldHandOff (some call) else g'
  | none => g'

/-- Linking a call (05 R94): another isolation that linked it loses its link first. -/
def Grid.linkCall (iso call : Nat) (g : Grid) : Grid :=
  ((g.unlinkIso call).onIso iso fun i => { i with call := some call }).awaitIsolation iso call

/-! ### Making an isolation (05 R92) -/

/-- The status of a BOUNDARY entry whose valve is CLOSED or STUCK as the isolation takes it (05 R92, R104). -/
def Grid.settleEntry (iso : Nat) (g : Grid) (valve : Nat) : Grid :=
  match g.valve? valve with
  | none => g
  | some v =>
    match v.state with
    | .closed => g.onIso iso (Isolation.mark valve .closed)
    | .stuck => g.entryStuck iso valve
    | .opened | .closing | .opening => g

/-- Appends BOUNDARY entries for valves, holds each valve in plan order, and settles each entry's status. -/
def Grid.appendBoundary (iso : Nat) (valves : List Nat) (g : Grid) : Grid :=
  let g1 := g.onIso iso fun i => { i with plan := i.plan ++ valves.map fun n => ⟨n, .boundary, none, .waiting⟩ }
  let g2 := valves.foldl (fun g n => g.holdValve iso n) g1
  valves.foldl (Grid.settleEntry iso) g2

/-- A new record for a target (05 R92), with its boundary entries and first stage. -/
def Grid.makeIsolation (target : Nat) (g : Grid) : Grid :=
  let n := nextNumber Config.lastIsolationNumber (g.isos.map (·.num)) g.isos.length g.lastIso
  let i : Isolation :=
    { num := n, target := target, call := none, plan := [], stage := .closing, started := g.net, held := none,
      released := false }
  let g' := { g with isos := insertBy (·.num) i g.isos, lastIso := n }
  (g'.appendBoundary n ((g.touching target).map (·.num))).restage n

/-! ### Release (05 R101, R102) -/

/-- The call desk's part of a release (07 R134): back to ON-SITE from AWAITING-ISOLATION, the isolation field
cleared. -/
def Grid.releaseCall (call : Option Nat) (g : Grid) : Grid :=
  match call with
  | none => g
  | some n =>
    g.onCall n fun c => { c with state := if c.state = .awaitingIsolation then .onSite else c.state, iso := none }

/-- The isolation leaves the holder set of every plan valve, and its record closes. -/
def Grid.releaseIso (i : Isolation) (g : Grid) : Grid :=
  let g' := i.plan.foldl (fun g e => g.onValve e.valve (Valve.dropIso g.ctx i.num)) g
  (g'.onIso i.num fun i => { i with released := true, stage := .released, held := none, call := none }).releaseCall
    i.call

/-! ### Adoption (05 R104) -/

/-- One unreleased isolation gains every valve that touches its target and is not in its plan. -/
def Grid.appendNewBoundary (g : Grid) (iso : Nat) : Grid :=
  match g.iso? iso with
  | none => g
  | some i =>
    if i.released then g
    else
      let fresh := ((g.touching i.target).map (·.num)).filter fun n => !i.holds n
      (g.appendBoundary iso fresh).restage iso

end Sys2Proof.Machine
end

