-- ==== Sys2Proof/Machine/Restoration.lean ====
section
/-! DEFINITION. The restoration unit's own changes to a segment (06): an outage opens, is lost again, regains supply,
counts stable readings, and ends. -/
namespace Sys2Proof.Machine

/-- Why a valve's passability changed (04 Table 4-6). -/
inductive Account where
  | isolation (num : Nat)
  | operator
  | uncommanded
  | fault
  deriving DecidableEq, Repr

/-- A net change of a valve's passability (01 R13): GAINED or LOST, with its account. -/
structure PassChange where
  valve : Nat
  gained : Bool
  account : Account
  deriving DecidableEq, Repr

/-- What runs a resolution (01 R14). -/
inductive Trigger where
  /-- VALVE and FEED triggers of one event, each list in ascending number. -/
  | changes (valves : List PassChange) (feeds : List (Nat × Presence))
  | first
  | adoption
  deriving DecidableEq, Repr

/-- The cause an account gives (06 Table 6-2). -/
def PassChange.cause (c : PassChange) : OutageCause :=
  match c.account with
  | .isolation n => .isolation n
  | .operator => .operator c.valve
  | .uncommanded => .uncommanded c.valve
  | .fault => .fault c.valve

/-- The cause of an outage from the trigger (06 R108): the LOST valve change of lowest number, else the FAILED feed
change of lowest number. A trigger with neither makes no segment UNFED (01 R19); the value given there is log 25's. -/
def Trigger.cause : Trigger → OutageCause
  | .first => .initial
  | .adoption => .initial
  | .changes vs fs =>
    match vs.find? fun c => !c.gained with
    | some c => c.cause
    | none =>
      match fs.find? fun f => f.2 == .failed with
      | some f => .feedFailed f.1
      | none => .initial

/-- The outage part as it opens (06 R109). -/
def Outage.opened (net : Sec) (c : OutageCause) (s : Segment) : Outage where
  cause := c
  stage := .off
  off := s.st.customers - s.unrelit
  relit := 0
  repeats := 0
  stable := 0
  target := none
  reports := 0
  started := net
  peak := s.st.customers - s.unrelit

/-- The part after a re-loss (06 R110). -/
def Outage.lostAgain (c : OutageCause) (s : Segment) (p : Outage) : Outage :=
  { p with
    stage := .off
    cause := c
    repeats := min 255 (p.repeats + 1)
    off := s.st.customers - s.unrelit
    relit := 0
    stable := 0
    target := none
    peak := max p.peak (s.st.customers - s.unrelit) }

/-- The segment became UNFED (06 R109, R110). -/
def Segment.loseSupply (net : Sec) (c : OutageCause) (s : Segment) : Segment :=
  match s.outage with
  | none => { s with outage := some (Outage.opened net c s) }
  | some p => if p.stage = .off then s else { s with outage := some (p.lostAgain c s) }

/-- The segment became FED from UNFED (06 R111): the part moves from OFF to REPRESSURIZING. -/
def Segment.regainSupply (stable : Nat) (s : Segment) : Segment :=
  match s.outage with
  | some p =>
    if p.stage = .off then { s with outage := some { p with stage := .repressurizing, stable := 0, target := some stable } }
    else s
  | none => s

/-- The outage ends (06 R116): the summary is replaced and the part removed. -/
def Segment.endOutage (net : Sec) (settled : Nat) (s : Segment) : Segment :=
  match s.outage with
  | some p =>
    { s with
      outage := none
      summary := some
        { cause := p.cause, started := p.started, ended := net, peak := p.peak, relit := p.relit, settled := settled,
          repeats := p.repeats } }
  | none => s

/-- The stable count reaches its target (06 R113): RELIGHTING, and the end at once when nobody is off. -/
def Segment.enterRelighting (net : Sec) (p : Outage) (s : Segment) : Segment :=
  let s' := { s with outage := some { p with stage := .relighting } }
  if p.off = 0 then s'.endOutage net 0 else s'

/-- The stable count at a recomputation (06 R112). `counts` says that SAMPLE is among the causes and that the part did
not enter REPRESSURIZING in the same event. DESIGN CHOICE (logs 40, 41): a SHORT band sets the count and its target again at
the recomputations of a warm restart and of an adoption too, though 06 R106 and R119 keep them there. -/
def Segment.stableUpdate (stable : Nat) (net : Sec) (counts : Bool) (s : Segment) : Segment :=
  match s.outage with
  | none => s
  | some p =>
    match p.stage, s.band with
    | .off, _ => s
    | .repressurizing, some .short => { s with outage := some { p with stable := 0, target := some stable } }
    | .repressurizing, some _ =>
      if counts then
        let p' := { p with stable := min 15 (p.stable + 1) }
        if p'.target.any (· ≤ p'.stable) then s.enterRelighting net p' else { s with outage := some p' }
      else s
    | .repressurizing, none => s
    | .relighting, some .short => { s with outage := some { p with stable := 0, target := some stable } }
    | .relighting, _ => s

end Sys2Proof.Machine
end

