-- ==== Sys2Proof/Machine/Estimator.lean ====
section
/-! DEFINITION. The estimator (03): the supply tree of a feed, the demand, flow, drop, pressure and band arithmetic, the
recomputation of the trees an event reached, and the anomaly comparison. -/
namespace Sys2Proof.Machine

/-- The distance of a segment, 0 when it is not FED. -/
def Segment.dist (s : Segment) : Nat :=
  match s.supply with
  | .fed l => l.dist
  | .unknown => 0
  | .unfed => 0

/-- The supply tree of a feed, by distance, then segment number (01 R16, 10 Table 10-2). -/
def Grid.tree (g : Grid) (f : Nat) : List Segment :=
  sortBy Segment.dist (g.segs.filter fun s => s.supply.feed? == some f)

/-! ### The arithmetic (03 section 3.3) -/

/-- Demand (03 R54). -/
def demandOf (weather : Nat) (s : Segment) : Nat := s.onSupply * s.st.unitLoad * weather / 1000

/-- The effective parent of a FED segment. -/
def Segment.parent? (s : Segment) : Option Node :=
  match s.supply with
  | .fed l => some l.parent
  | .unknown => none
  | .unfed => none

/-- Flows of a tree listed from the feed (03 R55): formed from the far end, each with its segment. -/
def flowsOf (weather : Nat) (tree : List Segment) : List (Segment × Nat) :=
  tree.foldr
    (fun s below =>
      let children := below.filter fun c => c.1.parent? == some (.seg s.num)
      (s, min Config.maxFlow (demandOf weather s + (children.map (·.2)).sum)) :: below)
    []

/-- Drop (03 R56): resistance times the square of the flow, rounded to the nearest pascal, half up. -/
def dropOf (resistance flow : Nat) : Nat :=
  min Config.maxPressure ((flow * flow * resistance + 500000000000) / 1000000000000)

/-- End pressures of a tree listed from the feed (03 R57): the parent's less the own drop, not below 0. -/
def pressuresOf (p0 : Nat) (flows : List (Segment × Nat)) : List (Nat × Nat) :=
  flows.foldl
    (fun above sf =>
      let entry :=
        match sf.1.parent? with
        | some (.seg m) => (above.lookup m).getD p0
        | some (.feed _) => p0
        | none => p0
      above ++ [(sf.1.num, entry - dropOf sf.1.st.resistance sf.2)])
    []

/-- The new band (03 Table 3-4 with its notes) from the band before, the margin, the warn margin and the hysteresis. -/
def bandFor (before : Option Band) (m : Int) (w h : Nat) : Band :=
  if m < 0 then .short
  else
    match before with
    | none => if m < w then .low else .normal
    | some .normal => if m < w then .low else .normal
    | some .low => if m < w + h then .low else .normal
    | some .short => if m < h then .short else if m < w + h then .low else .normal

/-- Margin and band of an end pressure (03 R57, R58). -/
def levelFor (s : Segment) (press : Nat) : Level :=
  let m : Int := (press : Int) - s.st.minimum
  ⟨press, m, bandFor s.band m s.st.warn s.st.hysteresis⟩

/-- A member of a recomputed tree, with its flow and, when there is a pressure to start from, its end pressure. -/
def Segment.estimated (weather flow : Nat) (press : Option Nat) (s : Segment) : Segment :=
  { s with
    est :=
      { s.est with
        demand := demandOf weather s
        flow := flow
        drop := dropOf s.st.resistance flow
        level := press.map (levelFor s) } }

/-- One recomputation of the tree of feed `f` from a starting pressure (03 R49, R51), with the restoration unit's part
(06 R112). `sampled` says that SAMPLE is among the causes. -/
def Grid.recompute (f : Nat) (p0 : Option Nat) (sampled : Bool) (regained : List Nat) (g : Grid) : Grid :=
  let flows := flowsOf g.engine.weather (g.tree f)
  let presses : List (Nat × Nat) :=
    match p0 with
    | some p => pressuresOf p flows
    | none => []
  { g with
    segs := g.segs.map fun s =>
      match flows.find? fun sf => sf.1.num == s.num with
      | some sf =>
        (s.estimated g.engine.weather sf.2 (presses.lookup s.num)).stableUpdate g.engine.consts.stable g.net
          (sampled && !(regained.contains s.num))
      | none => s }

/-- The recomputation of a reached tree (03 R49 to R52). With an input, the tree is recomputed from it and it becomes
the tree input; a tree without members is reached only by a cause other than STRUCTURE (log 13). Without an input, a
STRUCTURE cause recomputes it from the tree input, or without pressures; any other cause holds it. -/
def Grid.recomputeFor (f : Nat) (causes : List TreeCause) (regained : List Nat) (g : Grid) : Grid :=
  match g.feed? f with
  | none => g
  | some fd =>
    match fd.input with
    | some i =>
      if fd.presence = .present ∧ (!(g.tree f).isEmpty || causes.any (· != .restructured)) = true then
        (g.recompute f (some i.value) (causes.contains .sample) regained).onFeed f
          fun r => { r with treeInput := some i.value }
      else g
    | none => if causes.contains .restructured then g.recompute f fd.treeInput false regained else g

/-- Each tree reached is recomputed once for the event, with all the causes that reached it (03 R50), in LIVE,
MAINTENANCE and ADOPT-PENDING. -/
def Work.recomputeAll (w : Work) : Work :=
  if w.grid.engine.state.inService then
    w.on fun g =>
      (g.feeds.map (·.num)).foldl
        (fun g f =>
          let causes := (w.causes.filter (·.1 == f)).map (·.2)
          if causes = [] then g else g.recomputeFor f causes w.regained)
        g
  else w

/-! ### Anomaly (03 section 3.5) -/

/-- A run after one more comparison of its kind: it takes its target as it begins and saturates at 15 (03 R61). -/
def Run.next (target : Nat) : Option Run → Run
  | none => ⟨1, target⟩
  | some r => ⟨min 15 (r.count + 1), r.target⟩

/-- One comparison of the end pressure with a smoothed value (03 R61). -/
def Estimate.compare (count limit press value : Nat) (e : Estimate) : Estimate :=
  if limit < ((press : Int) - value).natAbs then
    let r := Run.next count e.outside
    { e with inside := none, outside := some r, anomaly := e.anomaly || decide (r.target ≤ r.count) }
  else
    let r := Run.next count e.inside
    { e with outside := none, inside := some r, anomaly := e.anomaly && !decide (r.target ≤ r.count) }

/-- The comparison at a smoothed value handed on by an extremity point (03 R60): made when the segment is FED, not STALE
and has an end pressure. -/
def Grid.compareAt (point value : Nat) (g : Grid) : Grid :=
  { g with
    segs := g.segs.map fun s =>
      if s.st.extremity = some point ∧ s.supply.isFed = true ∧ g.staleSeg s = false then
        match s.est.level with
        | some l => { s with est := s.est.compare g.engine.consts.anomaly s.st.deviation l.press value }
        | none => s
      else s }

end Sys2Proof.Machine
end

