-- ==== Sys2Proof/Machine/Telemetry.lean ====
section
/-! DEFINITION. The telemetry unit (02): scaling, smoothing, the lock machine, alarms, the feed's runs, presence, input
and stale flag, and the warm restart of points and feeds. -/
namespace Sys2Proof.Machine

/-! ### Samples (02 R29, R30) -/

/-- A sample is valid when its quality is GOOD (byte 0, 11 R172) and its raw value is at most 4,095. -/
def validSample (raw quality : Nat) : Bool := quality == 0 && decide (raw ≤ 4095)

/-- The scaled value (02 R29). -/
def scaled (st : PointStatic) (raw : Nat) : Nat := min Config.maxPressure (st.scaleLow + (raw * st.span + 2047) / 4095)

/-- A difference divided by 2^k and rounded to the nearest whole pascal, an exact half away from zero (02 R30). -/
def roundedShift (d : Nat) (k : Nat) : Nat := (2 * d + 2 ^ k) / (2 * 2 ^ k)

/-- The smoothed value after a valid sample of a LOCKED point (02 R30). -/
def smooth (k old new : Nat) : Nat :=
  if old ≤ new then old + roundedShift (new - old) k else old - roundedShift (old - new) k

/-! ### Pending parameters (02 R28) -/

/-- The static part with the pending values written into it. -/
def Pending.apply (p : Pending) (st : PointStatic) : PointStatic where
  kind := st.kind
  scaleLow := p.scaleLow.getD st.scaleLow
  span := p.span.getD st.span
  lockCount := p.lockCount.getD st.lockCount
  lossCount := p.lossCount.getD st.lossCount
  shift := p.shift.getD st.shift
  interval := p.interval.getD st.interval
  loss := p.loss.getD st.loss
  substitute := p.substitute.getD st.substitute
  high := p.high.getD st.high
  low := p.low.getD st.low
  hysteresis := p.hysteresis.getD st.hysteresis

/-- A second AMEND merges: a field it names replaces the pending value, a field it does not name keeps it. -/
def Pending.over (new old : Pending) : Pending where
  scaleLow := new.scaleLow.or old.scaleLow
  span := new.span.or old.span
  lockCount := new.lockCount.or old.lockCount
  lossCount := new.lossCount.or old.lossCount
  shift := new.shift.or old.shift
  interval := new.interval.or old.interval
  loss := new.loss.or old.loss
  substitute := new.substitute.or old.substitute
  high := new.high.or old.high
  low := new.low.or old.low
  hysteresis := new.hysteresis.or old.hysteresis

/-! ### The lock machine (02 R31, R32) and alarms (02 R35) -/

/-- The alarm state from the smoothed value and the present state (02 R35). -/
def alarmFor (st : PointStatic) (s : Nat) (now : AlarmState) : AlarmState :=
  if st.high < s then .high
  else if s < st.low then .low
  else
    match now with
    | .high => if s + st.hysteresis ≤ st.high then .normal else .high
    | .low => if st.low + st.hysteresis ≤ s then .normal else .low
    | .normal => .normal

/-- The smoothed value is set or updated, and the alarm state evaluated from it (02 R30, R35). -/
def Point.withSmoothed (s : Nat) (p : Point) : Point := { p with smoothed := some s, alarm := alarmFor p.st s p.alarm }

/-- The point becomes LOCKED at a valid sample of this value (02 R30, R31). -/
def Point.lockAt (v : Nat) (p : Point) : Point := ({ p with lock := .locked, good := 0 } : Point).withSmoothed v

/-- A valid sample of scaled value `v` (02 R29, R31). -/
def Point.takeValid (v : Nat) (p : Point) : Point :=
  let p' := { p with latest := some v, fresh := true, miss := 0 }
  match p.lock with
  | .seeking => if p.st.lockCount ≤ p.good + 1 then p'.lockAt v else { p' with good := p.good + 1 }
  | .lost => if p.st.lockCount ≤ 1 then p'.lockAt v else { p' with lock := .seeking, good := 1 }
  | .locked => p'.withSmoothed (smooth p.st.shift (p.smoothed.getD v) v)

/-- One more miss: LOCKED goes to LOST at the loss count (02 R32, R33). -/
def Point.addMiss (p : Point) : Point :=
  let n := min 15 (p.miss + 1)
  { p with
    miss := n
    good := 0
    lock := if p.lock = .locked ∧ p.st.lossCount ≤ n then .lost else p.lock }

/-- The whole of a taken sample at the point (02 R27): pending parameters, validity, lock state, alarm, stamps. -/
def Point.takeSample (now net : Sec) (raw quality : Nat) (p : Point) : Point :=
  let p0 := { p with st := p.pend.apply p.st, pend := {} }
  let p1 := if validSample raw quality then p0.takeValid (scaled p0.st raw) else p0.addMiss
  { p1 with deadline := now + secs p1.st.interval, lastSample := some net }

/-- An interval expiry at the point (02 R33). -/
def Point.expire (now : Sec) (p : Point) : Point := { p.addMiss with deadline := now + secs p.st.interval }

/-! ### The feed (02 R39 to R43) -/

/-- The runs after a value (02 R39). -/
def Feed.advanceRuns (v : Nat) (f : Feed) : Feed :=
  if v < f.st.failBelow then { f with low := min 15 (f.low + 1), high := 0 }
  else if f.st.restoreAt ≤ v then { f with high := min 15 (f.high + 1), low := 0 }
  else { f with low := 0, high := 0 }

/-- The presence after a value and its runs (02 Table 2-6). -/
def Feed.judge (v : Nat) (f : Feed) : Feed :=
  match f.presence with
  | .unknown =>
    if f.st.failBelow ≤ v then { f with presence := .present }
    else if f.st.failCount ≤ f.low then { f with presence := .failed }
    else f
  | .present => if f.st.failCount ≤ f.low then { f with presence := .failed } else f
  | .failed => if f.st.failCount ≤ f.high then { f with presence := .present } else f

/-- A smoothed value handed to the feed (02 R39 to R41): runs, presence, then the LIVE input. -/
def Feed.takeValue (v : Nat) (f : Feed) : Feed :=
  let f' := (f.advanceRuns v).judge v
  { f' with input := some ⟨v, .live⟩ }

/-- The feed's point has left LOCKED (02 R39, R41, R42): runs 0, stale, the input taken over. -/
def Feed.takeOver (p : Point) (f : Feed) : Feed := { f with low := 0, high := 0, stale := true, input := takeover p }

/-- The feed named by a point, when the point is of kind FEED. -/
def Grid.feedOf (g : Grid) (p : Point) : Option Feed :=
  if p.st.kind = .feed then g.feeds.find? fun f => f.st.point == p.num else none

/-- Hands a takeover or re-derived input to the estimator: a new value reaches the feed's tree, an absent one is not
handed on (02 R41). -/
def Work.handInput (f : Nat) (i : Option Input) (w : Work) : Work := if i.isSome then w.reach f .takeover else w

/-- The feed's part of a change of its point from `before` to `after` (02 R37 to R44). `valid` says that a valid sample
was taken, `applied` that pending parameters were. -/
def Work.feedFollows (before after : Point) (valid applied : Bool) (f : Feed) (w : Work) : Work :=
  if after.lock = .locked ∧ valid then
    let v := after.smoothed.getD 0
    (w.on (Grid.onFeed f.num fun r => { r.takeValue v with stale := false })).reach f.num .sample
  else if before.lock = .locked ∧ after.lock ≠ .locked then
    (w.on (Grid.onFeed f.num (Feed.takeOver after))).handInput f.num (takeover after)
  else if applied ∧ after.lock ≠ .locked ∧ f.input ≠ takeover after then
    (w.on (Grid.onFeed f.num fun r => { r with input := takeover after })).handInput f.num (takeover after)
  else w

/-- What a point hands on (02 R34, R37): to the feed that names it, or to the estimator for the segment that does. -/
def Work.pointHandsOn (before after : Point) (valid applied : Bool) (w : Work) : Work :=
  match after.st.kind with
  | .feed =>
    match w.grid.feedOf after with
    | some f => w.feedFollows before after valid applied f
    | none => w
  | .extremity =>
    if after.lock = .locked ∧ valid then w.on (Grid.compareAt after.num (after.smoothed.getD 0)) else w
  | .general => w

/-- The handling of a taken sample (02 R27): the point, the PARAMS change of applied parameters, the hand-offs. -/
def Work.sampled (p : Point) (raw quality : Nat) (w : Work) : Work :=
  let after := p.takeSample w.grid.now w.grid.net raw quality
  let applied := p.pend ≠ {}
  let w1 := w.on (Grid.onPoint p.num fun _ => after)
  let w2 := if applied then w1.post .pointParams p.num .routine else w1
  w2.pointHandsOn p after (validSample raw quality) applied

/-- The handling of an interval expiry (02 R33, R34). -/
def Work.pointExpired (p : Point) (w : Work) : Work :=
  let after := p.expire w.grid.now
  (w.on (Grid.onPoint p.num fun _ => after)).pointHandsOn p after false false

/-! ### Warm restart (02 R45) -/

def Point.restart (now : Sec) (p : Point) : Point :=
  { p with lock := .seeking, good := 0, miss := 0, deadline := now + secs p.st.interval, fresh := false }

/-- A feed at a warm restart: its input is taken over as at a loss of its point. -/
def Feed.restart (points : List Point) (f : Feed) : Feed :=
  match points.find? (·.num == f.st.point) with
  | some p => f.takeOver p
  | none => { f with low := 0, high := 0, stale := true }

/-- The telemetry unit at a warm restart; each HELD or SUBSTITUTE input is handed on as a takeover. -/
def Work.restartTelemetry (w : Work) : Work :=
  let points := w.grid.points.map (Point.restart w.grid.now)
  let feeds := w.grid.feeds.map (Feed.restart points)
  { w with
    grid := { w.grid with points := points, feeds := feeds }
    causes := w.causes ++ (feeds.filter fun f => f.input.isSome).map fun f => (f.num, .takeover) }

end Sys2Proof.Machine
end

