-- ==== Sys2Proof/Machine/Posting.lean ====
section
/-! DEFINITION. What a change of each record posts to the notice list, and the posting of an event's changes as each block
finishes its handling. -/
namespace Sys2Proof.Machine

/-! ### What a change of a record posts (log 9, 10) -/

/-- Posts a change when its condition holds. -/
def postIf (cond : Bool) (k : Change) (n : Nat) (c : Urgency) : List Act := if cond then [.post k n c] else []

/-- URGENT when the condition holds, else ROUTINE. -/
def urgentIf (cond : Bool) : Urgency := if cond then .urgent else .routine

/-- A point (02 R34, R35): a FEED point that a feed names is posted urgent as it becomes LOST. -/
def Point.acts (g : Grid) (old new : Point) : List Act :=
  postIf (old.lock != new.lock) .pointLock new.num (urgentIf (new.lock == .lost && (g.feedOf new).isSome)) ++
    postIf (old.alarm != new.alarm) .pointAlarm new.num .routine

/-- A feed (02 R40, R42). -/
def Feed.acts (old new : Feed) : List Act :=
  postIf (old.presence != new.presence) .feedPresence new.num (urgentIf (new.presence == .failed)) ++
    postIf (old.stale != new.stale) .feedStale new.num .routine

/-- The valve passed through CLOSED on its way to OPENING, so that a verify deadline was set and removed again (04 R74,
R76): CLOSING and STUCK lead to OPENING no other way. -/
def Valve.passedClosed (old new : Valve) : Bool := (old.state == .closing || old.state == .stuck) && new.state == .opening

/-- A valve (04 Table 4-7). -/
def Valve.acts (old new : Valve) : List Act :=
  postIf (old.state != new.state || old.known != new.known || old.fault != new.fault ||
      old.uncommanded != new.uncommanded) .valveState new.num
    (urgentIf ((old.state != .stuck && new.state == .stuck) || (!old.uncommanded && new.uncommanded))) ++
  postIf (old.order != new.order || old.counter != new.counter) .valveOrder new.num .routine ++
  postIf (old.isos != new.isos || old.hold != new.hold || old.reopen != new.reopen) .valveHolders new.num .routine ++
  postIf (old.unverified != new.unverified || old.verifyDeadline != new.verifyDeadline || old.verified != new.verified ||
      old.passedClosed new) .valveVerify new.num .routine ++
  postIf (old.moving != new.moving) .valveMotion new.num .routine

/-- An isolation (05 Table 5-4). Every entry into WIDENING is urgent, the return from FAILED by CLEAR-FAULT too
(log 34). -/
def Isolation.acts (old new : Isolation) : List Act :=
  postIf (old.stage != new.stage) .isoStage new.num (urgentIf (new.stage == .widening || new.stage == .failed)) ++
    postIf (old.plan != new.plan) .isoPlan new.num .routine ++
    postIf (old.call != new.call) .isoLink new.num .routine ++
    postIf (!old.released && new.released) .isoReleased new.num .routine

/-- A new isolation (05 R105): STAGE and PLAN, and LINK when a call is linked. -/
def Isolation.newActs (new : Isolation) : List Act :=
  [.post .isoStage new.num (urgentIf (new.stage == .widening || new.stage == .failed)),
    .post .isoPlan new.num .routine] ++ postIf new.call.isSome .isoLink new.num .routine

/-- The outage part of a segment (06 Table 6-4). An end always comes with a change of a count: of the stable count,
the off count or the unrelit count. -/
def outageActs (n : Nat) (old new : Segment) : List Act :=
  match old.outage, new.outage with
  | none, none => postIf (old.unrelit != new.unrelit) .segRestore n .routine
  | none, some _ => [.post .segOutage n .urgent]
  | some _, none => [.post .segOutage n .routine, .post .segRestore n .routine]
  | some p, some q =>
    let lost := p.stage != .off && q.stage == .off
    postIf (p.stage != q.stage) .segOutage n (urgentIf lost) ++
      postIf (!lost && (p.off != q.off || p.relit != q.relit || p.stable != q.stable || old.unrelit != new.unrelit))
        .segRestore n .routine

/-- A segment (01 R24, 03 R59, R62, 06 R118, 07 R137, 08 R141). -/
def Segment.acts (old new : Segment) : List Act :=
  postIf (old.supply != new.supply) .segSupply new.num .routine ++
    postIf (old.meshed != new.meshed) .segMesh new.num .routine ++
    postIf (old.band != new.band) .segBand new.num (urgentIf (new.band == some .short)) ++
    postIf (old.est.anomaly != new.est.anomaly) .segAnomaly new.num .routine ++
    outageActs new.num old new ++
    postIf (old.escapes != new.escapes || old.noSupply != new.noSupply) .segCalls new.num .routine ++
    postIf (old.conds != new.conds) .segConditions new.num .routine

/-- A call (07 Table 7-4). -/
def Call.acts (old new : Call) : List Act :=
  postIf (old.state != new.state || old.crew != new.crew || old.withdrawn != new.withdrawn) .callState new.num
      .routine ++
    postIf (old.base != new.base || (old.eff != new.eff && new.eff != 0)) .callGrade new.num .routine ++
    postIf (!old.overdue && new.overdue) .callOverdue new.num .urgent ++
    postIf (old.iso != new.iso) .callLink new.num .routine ++
    postIf (old.state != .closed && new.state == .closed) .callClosed new.num .routine

/-- A new call posts STATE, urgent when its base grade is 1 (07 R125). -/
def Call.newActs (new : Call) : List Act := [.post .callState new.num (urgentIf (new.base == 1))]

/-- A crew (07 Table 7-4). -/
def Crew.acts (old new : Crew) : List Act :=
  postIf (old.state != new.state || old.call != new.call || old.home != new.home) .crewState new.num .routine

/-- The engine record (09 R147): the changes that the difference shows. -/
def Engine.acts (old new : Engine) : List Act :=
  postIf (old.state != new.state) .engineState 0 .routine ++
    postIf (old.weather != new.weather) .engineWeather 0 .routine ++
    postIf (old.consts != new.consts) .engineConstants 0 .routine

/-- What the records at two moments of an event post by their difference. A segment or valve that entered the live table
in between has its entry values and posts nothing (log 24). -/
def diffActs (before after : Grid) : List Act :=
  (after.points.flatMap fun p => ((before.point? p.num).map fun o => o.acts after p).getD []) ++
    (after.feeds.flatMap fun f => ((before.feed? f.num).map fun o => o.acts f).getD []) ++
    (after.valves.flatMap fun v => ((before.valve? v.num).map fun o => o.acts v).getD []) ++
    (after.isos.flatMap fun i => ((before.iso? i.num).map fun o => o.acts i).getD i.newActs) ++
    (after.segs.flatMap fun s => ((before.seg? s.num).map fun o => o.acts s).getD []) ++
    (after.calls.flatMap fun c => ((before.call? c.num).map fun o => o.acts c).getD c.newActs) ++
    (after.crews.flatMap fun k => ((before.crew? k.num).map fun o => o.acts k).getD []) ++
    before.engine.acts after.engine

/-! ### Posting within an event (log 10) -/

/-- Posts what has changed in the records since the event last posted. -/
def Work.noted (w : Work) : Work := { w with acts := w.acts ++ diffActs w.seen w.grid, seen := w.grid }

/-- A block has finished its handling: the call desk's counts and grades follow it (07 R127, R137; log 12), and its changes
are posted. -/
def Work.settled (w : Work) : Work := (w.on fun g => g.recount.regrade).noted

end Sys2Proof.Machine
end

