-- ==== Sys2Proof/Machine/Monitor.lean ====
section
/-! DEFINITION. The condition monitor (08): vectors at the end of an event, and the watch screens that re-evaluate the
segments whose vector changed. -/
namespace Sys2Proof.Machine

/-- In scope (08 R142): the scope is ALL or equals the home feed. -/
def Screen.inScope (sc : Screen) (s : Segment) : Bool :=
  match sc.scope with
  | none => true
  | some f => s.st.homeFeed == f

/-- A segment in scope matches when each condition in the care set equals its required value (08 R142). -/
def Screen.matches (sc : Screen) (s : Segment) : Bool :=
  sc.inScope s && (s.conds ^^^ sc.required) &&& sc.care == 0

/-- Every vector and UNVERIFIED count, as the records stand at the end of the event (08 R139 to R141; log 12). -/
def Grid.refreshVectors (g : Grid) : Grid :=
  { g with segs := g.segs.map fun s => { s with conds := g.vector s, unverified := g.unverifiedCount s.num } }

/-- The changed segments of an event (08 R141): those whose vector differs from the one they had before it; a segment
new in the event had every condition clear. -/
def changedSegs (before after : List Segment) : List Segment :=
  after.filter fun s =>
    match before.find? (·.num == s.num) with
    | some b => b.conds != s.conds
    | none => s.conds != 0

/-- The segments among `segs` that enter the screen, and those that leave it (08 R143). -/
def Screen.entries (sc : Screen) (segs : List Segment) : List Nat :=
  (segs.filter fun s => sc.enabled && sc.matches s && !sc.matched.contains s.num).map (·.num)
def Screen.exits (sc : Screen) (segs : List Segment) : List Nat :=
  (segs.filter fun s => sc.enabled && !sc.matches s && sc.matched.contains s.num).map (·.num)

/-- The match set after re-evaluation. -/
def Screen.rematch (sc : Screen) (segs : List Segment) : List Nat :=
  (sc.entries segs).foldl (fun l n => insertNum n l) (sc.matched.filter fun n => !(sc.exits segs).contains n)

/-- A screen after it re-evaluates segments (08 R143). -/
def Screen.reevaluate (segs : List Segment) (sc : Screen) : Screen :=
  { sc with
    matched := sc.rematch segs
    entered := (sc.entries segs).foldl (fun l n => insertNum n l) sc.entered
    left := (sc.exits segs).foldl (fun l n => insertNum n l) sc.left }

/-- What a screen posts for its movements (08 R143): ENTERED in the screen's urgency, LEFT routine. -/
def Screen.movementActs (segs : List Segment) (sc : Screen) : List Act :=
  (if (sc.entries segs).isEmpty then [] else [.post .screenEntered sc.num sc.urgency]) ++
    (if (sc.exits segs).isEmpty then [] else [.post .screenLeft sc.num .routine])

/-- The segments the screens re-evaluate at the end of an event: the changed ones, or all at an adoption (08 R142). -/
def Work.rescreened (before : Grid) (w : Work) : List Segment :=
  if w.adopted then w.grid.segs else changedSegs before.segs w.grid.segs

/-- Every screen re-evaluates segments, and posts its movements. -/
def Work.rescreen (segs : List Segment) (w : Work) : Work :=
  { w with
    grid := { w.grid with screens := w.grid.screens.map (Screen.reevaluate segs) }
    acts := w.acts ++ w.grid.screens.flatMap (Screen.movementActs segs) }

/-- The monitor's part of an event (08 R141): the vectors as the event leaves them, with what they and the desk's pass
changed posted, then the screens. -/
def Work.monitored (before : Grid) (w : Work) : Work :=
  let w' := (w.on Grid.refreshVectors).noted
  w'.rescreen (w'.rescreened before)

/-- The monitor's part of a warm restart (08 R142): match sets follow the vectors, entered and left sets are
emptied, nothing is posted. -/
def Grid.monitorRestart (g : Grid) : Grid :=
  let g' := g.refreshVectors
  let segs := changedSegs g.segs g'.segs
  { g' with screens := g'.screens.map fun sc => { sc with matched := sc.rematch segs, entered := [], left := [] } }

/-- A deleted segment leaves every match set it stood in for the left set, and the entered set (08 R142). -/
def Screen.deleteSegs (gone : List Nat) (sc : Screen) : Screen :=
  { sc with
    matched := sc.matched.filter fun n => !gone.contains n
    entered := sc.entered.filter fun n => !gone.contains n
    left := (sc.matched.filter gone.contains).foldl (fun l n => insertNum n l) sc.left }

/-- What a screen posts for the deleted segments that stood in its match set (log 37): LEFT, routine as every exit (08
R143). ENTERED stays in its change set, also when the entered set empties. -/
def Screen.deletionActs (gone : List Nat) (sc : Screen) : List Act :=
  if sc.matched.any gone.contains then [.post .screenLeft sc.num .routine] else []

end Sys2Proof.Machine
end

