-- ==== Sys2Proof/Machine/Network.lean ====
section
/-! DEFINITION. The network model (01): the loaded-topology rule, and supply resolution with what it hands on. -/
namespace Sys2Proof.Machine

/-! ### The loaded-topology rule (01 section 1.5) -/

/-- The INVALID reasons, in the order of 01 Table 1-5. -/
inductive InvalidReason where
  | feedPoint | pointShared | homeFeed | extremityPoint | side | self | fallback | degree | loop | twoFeeds | noFeed
  | homeTree
  deriving DecidableEq, Repr

/-- The first offending record with its reason. -/
structure Invalid where
  ref : Ref
  reason : InvalidReason
  deriving DecidableEq, Repr

/-- A check that fails with a reason when its condition does not hold. -/
def check (ok : Bool) (kind : RecordKind) (n : Nat) (r : InvalidReason) : Option Invalid :=
  if ok then none else some ⟨⟨kind, n⟩, r⟩

def Topology.pointKind? (t : Topology) (p : Nat) : Option PointKind := (t.points.lookup p).map (·.kind)
def Topology.hasSeg (t : Topology) (n : Nat) : Bool := (t.segs.lookup n).isSome
def Topology.hasFeed (t : Topology) (n : Nat) : Bool := (t.feeds.lookup n).isSome
def Topology.hasValve (t : Topology) (n : Nat) : Bool := (t.valves.lookup n).isSome

/-- FEED-POINT, then POINT-SHARED, over the feeds; `used` holds the points of the feeds before (01 R8). -/
def checkFeeds (t : Topology) : List Nat → List (Nat × FeedStatic) → Option Invalid
  | _, [] => none
  | used, (n, f) :: rest =>
    (check (t.pointKind? f.point == some .feed) .feed n .feedPoint).or
      ((check (!used.contains f.point) .feed n .pointShared).or (checkFeeds t (f.point :: used) rest))

/-- HOME-FEED, EXTREMITY-POINT, POINT-SHARED, over the segments (01 R8). -/
def checkSegs (t : Topology) : List Nat → List (Nat × SegStatic) → Option Invalid
  | _, [] => none
  | used, (n, s) :: rest =>
    (check (t.hasFeed s.homeFeed) .segment n .homeFeed).or
      (match s.extremity with
        | none => checkSegs t used rest
        | some p =>
          (check (t.pointKind? p == some .extremity) .segment n .extremityPoint).or
            ((check (!used.contains p) .segment n .pointShared).or (checkSegs t (p :: used) rest)))

/-- SIDE, SELF, FALLBACK of one valve (01 R5, R8). -/
def checkValve (t : Topology) (n : Nat) (v : ValveStatic) : Option Invalid :=
  let sideB :=
    match v.nodeB with
    | .seg m => t.hasSeg m
    | .feed f => t.hasFeed f
  (check (t.hasSeg v.sideA && sideB) .valve n .side).or
    ((check (v.nodeB != .seg v.sideA) .valve n .self).or
      (check (v.fallbacks.all (fun f => t.hasValve f && f != n) && decide v.fallbacks.Nodup) .valve n .fallback))

/-- DEGREE of one segment (01 R9). -/
def checkDegree (t : Topology) (n : Nat) : Option Invalid :=
  check (decide ((t.valves.filter fun v => v.2.touches n).length ≤ Config.touchingValves)) .segment n .degree

/-- A part of the normal-position forest: the nodes joined so far (01 R10). -/
def partOf (parts : List (List Node)) (x : Node) : List Node := (parts.find? (·.contains x)).getD [x]

def holdsFeed (part : List Node) : Bool :=
  part.any fun x =>
    match x with
    | .feed _ => true
    | .seg _ => false

/-- LOOP and TWO-FEEDS over the normally open valves, with the forest they leave (01 R10). -/
def growForest : List (List Node) → List (Nat × ValveStatic) → Invalid ⊕ List (List Node)
  | parts, [] => .inr parts
  | parts, (n, v) :: rest =>
    let a := partOf parts (.seg v.sideA)
    let b := partOf parts v.nodeB
    if a.contains v.nodeB then .inl ⟨⟨.valve, n⟩, .loop⟩
    else if holdsFeed a && holdsFeed b then .inl ⟨⟨.valve, n⟩, .twoFeeds⟩
    else growForest ((a ++ b) :: parts.filter fun p => p != a && p != b) rest

/-- NO-FEED, then HOME-TREE, of one segment (01 R11). -/
def checkTree (forest : List (List Node)) (n : Nat) (s : SegStatic) : Option Invalid :=
  let part := partOf forest (.seg n)
  (check (holdsFeed part) .segment n .noFeed).or (check (part.contains (.feed s.homeFeed)) .segment n .homeTree)

/-- The loaded-topology rule (01 R7): the first check that fails, in the order of Table 1-5. -/
def Topology.invalid (t : Topology) : Option Invalid :=
  (checkFeeds t [] t.feeds).or
    ((checkSegs t (t.feeds.map (·.2.point)) t.segs).or
      ((t.valves.findSome? fun v => checkValve t v.1 v.2).or
        ((t.segs.findSome? fun s => checkDegree t s.1).or
          (match growForest [] (t.valves.filter fun v => v.2.normal == .opened) with
            | .inl e => some e
            | .inr forest => t.segs.findSome? fun s => checkTree forest s.1 s.2))))

/-! ### Supply resolution (01 section 1.7) -/

/-- The segments a resolution has given a distance so far, with their links. -/
abbrev Reached := List (Nat × SupplyLink)

/-- The supplying feed of a node at distance `k`, and nothing for a node at another distance or none (01 R15, R16). -/
def feedAt (feeds : List Feed) (done : Reached) (k : Nat) : Node → Option Nat
  | .feed f => if k = 0 ∧ (feeds.any fun fd => fd.num == f && fd.presence == .present) then some f else none
  | .seg m => (done.lookup m).bind fun l => if l.dist = k then some l.feed else none

/-- The link of a segment through its lowest-numbered passable valve to a node at distance `k` (01 R16). -/
def linkAt (g : Grid) (done : Reached) (k seg : Nat) : Option SupplyLink :=
  g.valves.findSome? fun v =>
    if v.passable then
      (v.st.across seg).bind fun x => (feedAt g.feeds done k x).map fun f => ⟨f, x, v.num, k + 1⟩
    else none

/-- Gives distance `k + 1` to every segment without a distance that lies across a passable valve from a node at `k`,
then goes on with the next distance (01 R15). -/
def spread (g : Grid) : Nat → Nat → Reached → Reached
  | 0, _, done => done
  | fuel + 1, k, done =>
    spread g fuel (k + 1)
      (done ++ g.segs.filterMap fun s =>
        if (done.lookup s.num).isSome then none else (linkAt g done k s.num).map fun l => (s.num, l))

/-- Every segment that a chain of passable valves joins to a PRESENT feed, with its link (01 R15, R16): no distance
exceeds the number of segments. -/
def Grid.reachedSegs (g : Grid) : Reached := spread g g.segs.length 0 []

/-- The MESHED flag (01 R17). -/
def meshedIn (g : Grid) (done : Reached) (seg : Nat) : Bool :=
  match done.lookup seg with
  | none => false
  | some l =>
    g.valves.any fun v =>
      v.passable && v.num != l.valve &&
        match v.st.across seg with
        | some (.seg m) => (done.lookup m).any fun l' => l'.valve != v.num
        | some (.feed f) => g.feeds.any fun fd => fd.num == f && fd.presence == .present
        | none => false

/-- What a supply state becomes (01 R16). -/
def supplyIn (done : Reached) (seg : Nat) : Supply :=
  match done.lookup seg with
  | some l => .fed l
  | none => .unfed

/-- One segment after a resolution: its supply fields, with the estimator's clearing (03 R53) and the restoration
unit's part (06 R109 to R111) of a change of supply state. -/
def Segment.resolved (net : Sec) (stable : Nat) (cause : OutageCause) (supply : Supply) (meshed : Bool) (s : Segment) :
    Segment :=
  let s' := { s with supply := supply, meshed := meshed }
  match s.supply, supply with
  | .unfed, .unfed => s'
  | .unfed, .fed _ => s'.regainSupply stable
  | .unknown, .unfed => { s' with est := .blank }.loseSupply net cause
  | .fed _, .unfed => { s' with est := .blank }.loseSupply net cause
  | _, _ => s'

/-- The trees a change of a segment's supply reaches: the one it left and the one it joined (03 Table 3-2). -/
def treesOf (old new : Supply) : List Nat := if old = new then [] else old.feed?.toList ++ new.feed?.toList

/-- A supply resolution (01 R14 to R24), as it changes every segment and reaches the trees left and joined. -/
def Work.resolve (t : Trigger) (w : Work) : Work :=
  let done := w.grid.reachedSegs
  { w with
    grid :=
      { w.grid with
        segs := w.grid.segs.map fun s =>
          s.resolved w.grid.net w.grid.engine.consts.stable t.cause (supplyIn done s.num) (meshedIn w.grid done s.num) }
    causes :=
      w.causes ++ w.grid.segs.flatMap fun s =>
        (treesOf s.supply (supplyIn done s.num)).map fun f => (f, .restructured)
    regained :=
      w.regained ++ (w.grid.segs.filter fun s => s.supply == .unfed && (supplyIn done s.num).isFed).map (·.num) }

/-! ### What causes a resolution -/

/-- The account of a net change of passability, read from the valve before and after the event (04 Table 4-6). -/
def accountOf (before after : Valve) : Account :=
  match before.state, after.state with
  | .closing, _ =>
    match after.isos with
    | n :: _ => .isolation n
    | [] => .operator
  | .opened, _ => .uncommanded
  | .stuck, .stuck => .fault
  | .stuck, _ => .operator
  | .opening, .closing =>
    match after.isos with
    | n :: _ => .isolation n
    | [] => .operator
  | .opening, _ => .operator
  | .closed, _ => .fault

/-- The net passability changes of an event, in ascending valve number (01 R13). -/
def passChanges (before after : List Valve) : List PassChange :=
  after.filterMap fun v =>
    match before.find? (·.num == v.num) with
    | some b => if b.passable = v.passable then none else some ⟨v.num, v.passable, accountOf b v⟩
    | none => none

/-- The presence changes of an event, in ascending feed number (02 R40). -/
def presenceChanges (before after : List Feed) : List (Nat × Presence) :=
  after.filterMap fun f =>
    match before.find? (·.num == f.num) with
    | some b => if b.presence = f.presence then none else some (f.num, f.presence)
    | none => none

/-- The resolution of an event's passability and presence changes (01 R14): one, when there is any, and only in LIVE,
MAINTENANCE and ADOPT-PENDING. `before` is the machine as the event found it. -/
def Work.resolveChanges (before : Grid) (w : Work) : Work :=
  let vs := passChanges before.valves w.grid.valves
  let fs := presenceChanges before.feeds w.grid.feeds
  if before.engine.state.inService ∧ !(vs.isEmpty && fs.isEmpty) then w.resolve (.changes vs fs) else w

end Sys2Proof.Machine
end

