-- ==== Sys2Proof/Machine/Adoption.lean ====
section
/-! DEFINITION. How a staging copy becomes the live network: commit, entry to live service, engagement, conflicts and
adoption (09 R150 to R156). -/
namespace Sys2Proof.Machine

/-! ### Engagement (09 R150) -/

/-- A segment is engaged while it is the target of an unreleased isolation, has an outage part, or has open calls. -/
def Grid.segEngaged (g : Grid) (s : Segment) : Bool :=
  (g.isos.any fun i => i.target == s.num && !i.released) || s.outage.isSome ||
    g.calls.any fun c => c.seg == s.num && c.state.isOpen

/-- A valve has holders or an outstanding order. -/
def Valve.inUse (v : Valve) : Bool := !v.free || v.order.isSome

/-- A valve is engaged while it is in use or in a state other than its normal position. -/
def Valve.engaged (v : Valve) : Bool := v.inUse || v.state != v.st.normal.rest

/-- A different kind or side (09 R150, Table 9-4). -/
def ValveStatic.differs (a b : ValveStatic) : Bool := a.kind != b.kind || a.sideA != b.sideA || a.sideB != b.sideB

/-! ### Conflicts (09 Table 9-4) -/

/-- The first adoption conflict, in the order of Table 9-4, each check over ascending numbers. -/
def Grid.conflict (g : Grid) (t : Topology) : Option Conflict :=
  (g.segs.findSome? fun s =>
      if g.segEngaged s && !t.hasSeg s.num then some ⟨⟨.segment, s.num⟩, .segmentDeleted⟩ else none).or
    ((g.valves.findSome? fun v =>
        if v.engaged && !t.hasValve v.num then some ⟨⟨.valve, v.num⟩, .valveDeleted⟩ else none).or
      ((g.valves.findSome? fun v =>
          if v.inUse && (t.valves.lookup v.num).any (v.st.differs ·) then
            some ⟨⟨.valve, v.num⟩, .valveChanged⟩
          else none).or
        (g.segs.findSome? fun s =>
          if (t.segs.lookup s.num).any fun st => decide (st.customers < s.off + s.unrelit) then
            some ⟨⟨.segment, s.num⟩, .customers⟩
          else none)))

/-! ### Commit (09 R152) -/

/-- The static part of every live record (09 R154). -/
def Grid.topology (g : Grid) : Topology where
  segs := g.segs.map fun r => (r.num, r.st)
  valves := g.valves.map fun r => (r.num, r.st)
  points := g.points.map fun r => (r.num, r.st)
  feeds := g.feeds.map fun r => (r.num, r.st)

/-- The live tables built from a copy, every record at its commit values, the crews made, VERIFYING entered. -/
def Grid.committed (t : Topology) (g : Grid) : Grid :=
  let points := t.points.map fun r => newPoint g.now r.1 r.2
  { g with
    engine := { g.engine with state := .verifying, staging := none }
    segs := t.segs.map fun r => newSegment r.1 r.2
    valves := t.valves.map fun r => newValve false r.1 r.2
    points := points
    feeds := t.feeds.map fun r => newFeed points r.1 r.2
    crews := (List.range Config.crews).map newCrew }

/-! ### Entry to LIVE (09 R153) -/

def Work.setEngine (e : EngineState) (w : Work) : Work :=
  w.on fun g => { g with engine := { g.engine with state := e } }

/-- The engine enters LIVE from VERIFYING and the first resolution runs (01 R20). What reached a tree in VERIFYING caused
no recomputation there, and causes none now (03 R49, R52). -/
def Work.enterLive (w : Work) : Work := ({ w with causes := [] }.setEngine .live).resolve .first

/-- A feed's point is LOCKED. -/
def Grid.feedLocked (g : Grid) (f : Feed) : Bool := (g.point? f.st.point).any fun p => p.lock == .locked

/-- Verification is complete (09 R153). -/
def Grid.verified (g : Grid) : Bool := (g.valves.all fun v => v.verified) && g.feeds.all g.feedLocked

/-- The verification test is made at this event (09 R153): VERIFYING has just been entered, a valve's verified mark
has been set, or a feed point has become LOCKED. -/
def Grid.testDue (g before : Grid) : Bool :=
  before.engine.state != .verifying ||
    (g.valves.any fun v => v.verified && (before.valve? v.num).any fun b => !b.verified) ||
    (g.feeds.any fun f => g.feedLocked f && !before.feedLocked f)

/-- The engine goes LIVE at the event that completes verification. -/
def Work.verify (before : Grid) (w : Work) : Work :=
  if w.grid.engine.state = .verifying ∧ (w.grid.testDue before && w.grid.verified) = true then w.enterLive else w

/-! ### Adoption (09 R156) -/

/-- A kept segment (03 R46, 06 R119): its static part replaced; a changed extremity point clears the anomaly fields;
a part in OFF counts every customer. -/
def Segment.adopt (st : SegStatic) (s : Segment) : Segment :=
  { s with
    st := st
    est := if s.st.extremity = st.extremity then s.est
      else { s.est with anomaly := false, outside := none, inside := none }
    outage := s.outage.map fun p =>
      if p.stage = .off then { p with off := st.customers - s.unrelit, peak := max p.peak (st.customers - s.unrelit) }
      else p }

/-- A kept feed (02 R38): another feed point gives it that point's input and stale flag, with runs of 0. -/
def Feed.adopt (points : List Point) (st : FeedStatic) (f : Feed) : Feed :=
  if f.st.point = st.point then { f with st := st }
  else
    { f with st := st, low := 0, high := 0, input := (newFeed points f.num st).input,
             stale := (newFeed points f.num st).stale }

/-- The live records of a copy: kept ones keep their dynamic state, new ones take their entry values, deleted ones
go. -/
def Grid.replaced (t : Topology) (g : Grid) : Grid :=
  let points := t.points.map fun r =>
    match g.point? r.1 with
    | some p => { p with st := r.2, pend := {} }
    | none => newPoint g.now r.1 r.2
  { g with
    engine := { g.engine with state := .live, staging := none, conflict := none }
    segs := t.segs.map fun r =>
      match g.seg? r.1 with
      | some s => s.adopt r.2
      | none => newSegment r.1 r.2
    valves := t.valves.map fun r =>
      match g.valve? r.1 with
      | some v => { v with st := r.2 }
      | none => newValve true r.1 r.2
    points := points
    feeds := t.feeds.map fun r =>
      match g.feed? r.1 with
      | some f => f.adopt points r.2
      | none => newFeed points r.1 r.2 }

/-- The numbers of the live segments a copy deletes. -/
def Grid.goneSegs (t : Topology) (g : Grid) : List Nat := (g.segs.map (·.num)).filter fun n => !t.hasSeg n

/-- The removal of each deleted record's notice entry (09 R156). -/
def Grid.dropActs (t : Topology) (g : Grid) : List Act :=
  (g.goneSegs t).map (fun n => Act.drop ⟨.segment, n⟩) ++
    ((g.valves.map (·.num)).filter fun n => !t.hasValve n).map (fun n => Act.drop ⟨.valve, n⟩) ++
    ((g.points.map (·.num)).filter fun n => !(t.points.lookup n).isSome).map (fun n => Act.drop ⟨.point, n⟩) ++
    ((g.feeds.map (·.num)).filter fun n => !t.hasFeed n).map (fun n => Act.drop ⟨.feed, n⟩)

/-- A MADE-SAFE call on a deleted segment is closed (07 R120). -/
def Grid.closeGone (gone : List Nat) (g : Grid) : Grid :=
  ((g.calls.filter fun c => c.state == .madeSafe && gone.contains c.seg).map (·.num)).foldl
    (fun g n => g.closeCall n) g

/-- The tables of a copy take the place of the live ones (09 R156): the deleted records' notices go, with the calls and the
places in screens that named them. DESIGN CHOICE (logs 9, 37): LEFT of the deleted segments is posted here, behind the
removals and ahead of what the other blocks post for the adoption. -/
def Work.replaceTables (t : Topology) (w : Work) : Work :=
  let gone := w.grid.goneSegs t
  let g := (w.grid.replaced t).closeGone gone
  { w with
    grid := { g with screens := g.screens.map (Screen.deleteSegs gone) }
    acts := w.acts ++ w.grid.dropActs t ++ g.screens.flatMap (Screen.deletionActs gone)
    adopted := true }

/-- An adoption (09 R156): the tables, the ADOPTION resolution, every tree reached, and the new boundary entries of
unreleased isolations. -/
def Work.adopt (t : Topology) (w : Work) : Work :=
  let w' := (((w.replaceTables t).settled).resolve .adoption).settled
  { w' with
    grid := (w'.grid.isos.map (·.num)).foldl Grid.appendNewBoundary w'.grid
    causes := w'.causes ++ w'.grid.feeds.map fun f => (f.num, .adoption) }

/-- Quiescence in ADOPT-PENDING (04 R69, 09 R155): at an event that leaves no outstanding order, a conflict returns
the engine to MAINTENANCE, and no conflict adopts the copy. -/
def Work.quiesce (before : Grid) (w : Work) : Work :=
  match w.grid.engine.staging with
  | none => w
  | some stg =>
    if w.grid.engine.state = .adoptPending ∧ (!before.ordered.isEmpty && w.grid.ordered.isEmpty) = true then
      match w.grid.conflict stg.topo with
      | some c =>
        (w.on fun g => { g with engine := { g.engine with state := .maintenance, conflict := some c } }).post
          .engineConflict 0 .urgent
      | none => w.adopt stg.topo
    else w

end Sys2Proof.Machine
end

