-- ==== Sys2Proof/Machine/Event.lean ====
section
/-! DEFINITION. The end of every event: the consequences that follow in the other blocks, and what the event leaves and
posts. -/
namespace Sys2Proof.Machine

/-- What follows an event in the other blocks before the call desk and the monitor: the resolution of its changes, the
adoption it may bring, the verification it may complete, and one recomputation of each tree reached. -/
def Work.consequences (before : Grid) (w : Work) : Work :=
  ((((w.settled.resolveChanges before).settled.quiesce before).settled.verify before).settled).recomputeAll

/-- The whole of an event, from its own handling: the consequences, the call desk's pass, the monitor's part. -/
def Work.ended (before : Grid) (w : Work) : Work := (w.consequences before).desk.monitored before

/-- The records at the end of an event. -/
def Work.finished (before : Grid) (w : Work) : Grid := (w.ended before).grid

/-- What an event posts, in order (log 9). -/
def Work.posted (before : Grid) (w : Work) : List Act := (w.ended before).acts

/-- A taken request, at its end: the reply reflects the records that result (10 R163). -/
def Work.answered (before : Grid) (c : Code) (body : Grid → List Byte) (w : Work) : Served :=
  ⟨w.finished before, w.posted before, ⟨c, body (w.finished before)⟩⟩

/-- An event without a reply, at its end. -/
def State.happens (s : State) (w : Work) : State := s.conclude (w.finished s.grid) (w.posted s.grid)

end Sys2Proof.Machine
end

