-- ==== Sys2Proof/Machine/Operands.lean ====
section
/-! DEFINITION. How values stand in frames (11 R171, R172): numbers, enumerations and options as bytes, frames and their
check, the request frames of the commands and back, and the loading parts. -/
namespace Sys2Proof.Machine

/-! ### Numbers -/

/-- A number in `n` bytes, most significant first (00 "Numbers in frames"). -/
def be : Nat → Nat → List Byte
  | 0, _ => []
  | n + 1, v => BitVec.ofNat 8 (v / 256 ^ n) :: be n v

/-- The number that bytes hold, most significant first. -/
def ofBe (bs : List Byte) : Nat := bs.foldl (fun a b => a * 256 + b.toNat) 0

/-- The fields of given sizes that bytes hold, when the length is exactly theirs. -/
def fields : List Nat → List Byte → Option (List Nat)
  | [], [] => some []
  | [], _ :: _ => none
  | n :: ns, bs => if bs.length < n then none else (fields ns (bs.drop n)).map (ofBe (bs.take n) :: ·)

def byteOf (n : Nat) : List Byte := be 1 n

/-- A mark or flag in a byte, or in a bit of one: 1 for set, 0 for clear. DESIGN CHOICE (log 42): 11 R171, R173 and R174 give
its place and no value. -/
def flag (b : Bool) : Nat := if b then 1 else 0
def secBytes (t : Sec) : List Byte := be 4 t.toNat

/-- A signed field of 4 bytes, two's complement. -/
def signedBytes (i : Int) : List Byte := be 4 (i % 4294967296).toNat

/-- A record number or 0xFFFF when absent. -/
def refBytes : Option Nat → List Byte
  | some n => be 2 n
  | none => be 2 0xFFFF

/-- A call or isolation number or 0 when absent. -/
def numBytes : Option Nat → List Byte
  | some n => be 2 n
  | none => be 2 0

/-- A pressure or 0xFFFFFFFF when absent. -/
def pressBytes : Option Nat → List Byte
  | some p => be 4 p
  | none => be 4 0xFFFFFFFF

/-- A margin or 0x80000000 when absent. -/
def marginBytes : Option Int → List Byte
  | some m => signedBytes m
  | none => be 4 0x80000000

/-- An optional time, preceded by its presence byte. -/
def timeBytes : Option Sec → List Byte
  | some t => byteOf 1 ++ secBytes t
  | none => byteOf 0 ++ be 4 0

/-- A group with a presence byte before it; an absent group is all zeros of its length. -/
def groupBytes {α : Type} (length : Nat) (enc : α → List Byte) : Option α → List Byte
  | some x => byteOf 1 ++ enc x
  | none => byteOf 0 ++ List.replicate length 0

/-- An enumerated byte or 0xFF when absent. -/
def codeBytes : Option Nat → List Byte
  | some n => byteOf n
  | none => byteOf 0xFF

/-- A number in its range. -/
def within (lo hi x : Nat) : Bool := decide (lo ≤ x) && decide (x ≤ hi)

/-! ### Enumerations: positions in the lists that define them -/

def RecordKind.code : RecordKind → Nat
  | .segment => 0 | .valve => 1 | .point => 2 | .feed => 3 | .call => 4 | .crew => 5 | .isolation => 6 | .screen => 7
  | .engine => 8

def RecordKind.ofCode : Nat → Option RecordKind
  | 0 => some .segment | 1 => some .valve | 2 => some .point | 3 => some .feed | 4 => some .call | 5 => some .crew
  | 6 => some .isolation | 7 => some .screen | 8 => some .engine | _ => none

def ValveKind.code : ValveKind → Nat
  | .line => 0 | .tie => 1 | .outlet => 2
def ValveKind.ofCode : Nat → Option ValveKind
  | 0 => some .line | 1 => some .tie | 2 => some .outlet | _ => none

def PointKind.code : PointKind → Nat
  | .feed => 0 | .extremity => 1 | .general => 2
def PointKind.ofCode : Nat → Option PointKind
  | 0 => some .feed | 1 => some .extremity | 2 => some .general | _ => none

def LossBehaviour.code : LossBehaviour → Nat
  | .hold => 0 | .substitute => 1 | .drop => 2
def LossBehaviour.ofCode : Nat → Option LossBehaviour
  | 0 => some .hold | 1 => some .substitute | 2 => some .drop | _ => none

def Position.code : Position → Nat
  | .opened => 0 | .closed => 1
def Position.ofCode : Nat → Option Position
  | 0 => some .opened | 1 => some .closed | _ => none

def ValveState.code : ValveState → Nat
  | .opened => 0 | .closing => 1 | .closed => 2 | .opening => 3 | .stuck => 4

def FaultKind.code : FaultKind → Nat
  | .timeout => 0 | .fieldFault => 1 | .positionLost => 2

def LockState.code : LockState → Nat
  | .seeking => 0 | .locked => 1 | .lost => 2

def AlarmState.code : AlarmState → Nat
  | .normal => 0 | .high => 1 | .low => 2

def Presence.code : Presence → Nat
  | .unknown => 0 | .present => 1 | .failed => 2

def InputSource.code : InputSource → Nat
  | .live => 0 | .held => 1 | .substitute => 2

def Supply.code : Supply → Nat
  | .unknown => 0 | .fed _ => 1 | .unfed => 2

/-- NORMAL 0, LOW 1, SHORT 2, none 3 (11 R171). -/
def bandCode : Option Band → Nat
  | some .normal => 0 | some .low => 1 | some .short => 2 | none => 3

def OutageCause.code : OutageCause → Nat
  | .isolation _ => 0 | .feedFailed _ => 1 | .uncommanded _ => 2 | .operator _ => 3 | .fault _ => 4 | .initial => 5

/-- The number a cause carries, absent for INITIAL (11 R173). -/
def OutageCause.num : OutageCause → Option Nat
  | .isolation n => some n | .feedFailed n => some n | .uncommanded n => some n | .operator n => some n
  | .fault n => some n | .initial => none

def OutageStage.code : OutageStage → Nat
  | .off => 0 | .repressurizing => 1 | .relighting => 2

def CallKind.code : CallKind → Nat
  | .escape => 0 | .noSupply => 1
def CallKind.ofCode : Nat → Option CallKind
  | 0 => some .escape | 1 => some .noSupply | _ => none

def CallState.code : CallState → Nat
  | .waiting => 0 | .assigned => 1 | .onSite => 2 | .awaitingIsolation => 3 | .madeSafe => 4 | .closed => 5

def CrewState.code : CrewState → Nat
  | .offShift => 0 | .available => 1 | .assigned => 2 | .onSite => 3

def Stage.code : Stage → Nat
  | .closing => 0 | .widening => 1 | .held => 2 | .failed => 3 | .released => 4

def Role.code : Role → Nat
  | .boundary => 0 | .fallback => 1

def EntryStatus.code : EntryStatus → Nat
  | .waiting => 0 | .closed => 1 | .bypassed => 2 | .failed => 3

def Urgency.code : Urgency → Nat
  | .urgent => 0 | .routine => 1
def Urgency.ofCode : Nat → Option Urgency
  | 0 => some .urgent | 1 => some .routine | _ => none

def EngineState.code : EngineState → Nat
  | .empty => 0 | .loading => 1 | .verifying => 2 | .live => 3 | .maintenance => 4 | .adoptPending => 5

def TableId.code : TableId → Nat
  | .segment => 0 | .valve => 1 | .point => 2 | .feed => 3
def TableId.ofCode : Nat → Option TableId
  | 0 => some .segment | 1 => some .valve | 2 => some .point | 3 => some .feed | _ => none

def Direction.code : Direction → Nat
  | .write => 0 | .read => 1

def ConflictReason.code : ConflictReason → Nat
  | .segmentDeleted => 0 | .valveDeleted => 1 | .valveChanged => 2 | .customers => 3

/-- The outcome codes (11 Table 11-3). -/
def Code.byte : Code → Byte
  | .done => 0x00 | .noChange => 0x01 | .merged => 0x02 | .notLive => 0x10 | .busy => 0x11 | .held => 0x12
  | .faultPending => 0x14 | .wrongState => 0x15 | .full => 0x16 | .unknown => 0x17 | .range => 0x18
  | .lowPressure => 0x19 | .engaged => 0x1A | .invalid => 0x1B | .sequence => 0x1C

/-! ### Frames (11 Table 11-1) -/

/-- The 8-bit sum of bytes. -/
def sumBytes (bs : List Byte) : Byte := bs.foldl (· + ·) 0

/-- KIND, TAG, LENGTH and payload. -/
def Frame.inner (f : Frame) : List Byte := f.kind :: f.tag :: BitVec.ofNat 8 f.payload.length :: f.payload

/-- The bytes of a frame on the line: START first, CHECK last. -/
def Frame.bytes (f : Frame) : List Byte := 0xD5 :: f.inner ++ [0 - sumBytes f.inner]

/-- The request kinds with their payload lengths (11 Table 11-2). -/
def requestKinds : List (Nat × List Nat) :=
  [(0x01, [0]), (0x02, [0]), (0x03, [4]), (0x04, [0]), (0x05, [0]), (0x06, [3]), (0x07, [5]),
    (0x08, (List.range 31).map (· + 5)), (0x09, [2]), (0x10, [3]),
    (0x11, [1, 5, 6, 7, 8, 9, 10, 11, 12, 13, 14, 17, 23]), (0x12, [0]), (0x13, [0]), (0x14, [0]), (0x15, [0]),
    (0x16, [0]), (0x17, [0])] ++
  [(0x20, [5]), (0x21, [3]), (0x30, [2]), (0x31, [6]), (0x32, [2]), (0x33, [3]), (0x34, [4]), (0x35, [2]),
    (0x40, [8]), (0x41, [3]), (0x42, [5]), (0x43, [4]), (0x50, [4]), (0x51, [2]), (0x60, [9]), (0x61, [2])]

/-- The REJECT reasons (11 Table 11-3). -/
inductive RejectReason where
  | check | kind | length | overrun
  deriving DecidableEq, Repr

def RejectReason.byte : RejectReason → Byte
  | .check => 1 | .kind => 2 | .length => 3 | .overrun => 4

/-- A REJECT frame: kind 0xFF, the frame's tag, the reason, the frame's KIND byte (10 R162, 11 R170). -/
def rejectFrame (reason : RejectReason) (kind tag : Byte) : Frame := ⟨0xFF, tag, [reason.byte, kind]⟩

/-- The reply frame of a request frame (10 R163). -/
def replyFrame (f : Frame) (r : Reply) : Frame := ⟨f.kind + 0x80, f.tag, r.code.byte :: r.body⟩

/-! ### Request frames (11 Table 11-5) -/

/-- The frame that carries a request; an event has none. -/
def frameOf : Instr → Option Frame
  | .ident t => some ⟨0x01, t, []⟩
  | .status t => some ⟨0x02, t, []⟩
  | .setClock t time => some ⟨0x03, t, be 4 time⟩
  | .restart t => some ⟨0x04, t, []⟩
  | .fetch t => some ⟨0x05, t, []⟩
  | .read t kind number => some ⟨0x06, t, be 1 kind ++ be 2 number⟩
  | .list t which argument start => some ⟨0x07, t, be 1 which ++ be 2 argument ++ be 2 start⟩
  | .amend t kind number mask values => some ⟨0x08, t, be 1 kind ++ be 2 number ++ be 2 mask ++ values⟩
  | .weather t factor => some ⟨0x09, t, be 2 factor⟩
  | .loadCursor t table index => some ⟨0x10, t, be 1 table ++ be 2 index⟩
  | .loadPart t content => some ⟨0x11, t, content⟩
  | .loadRead t => some ⟨0x12, t, []⟩
  | .commit t => some ⟨0x13, t, []⟩
  | .forceLive t => some ⟨0x14, t, []⟩
  | .enterMaintenance t => some ⟨0x15, t, []⟩
  | .adopt t => some ⟨0x16, t, []⟩
  | .abandon t => some ⟨0x17, t, []⟩
  | .sample t point raw quality => some ⟨0x20, t, be 2 point ++ be 2 raw ++ be 1 quality⟩
  | .valveReport t valve position => some ⟨0x21, t, be 2 valve ++ be 1 position⟩
  | .valveClose t valve => some ⟨0x30, t, be 2 valve⟩
  | .valveCloseTimed t valve duration => some ⟨0x31, t, be 2 valve ++ be 4 duration⟩
  | .valveOpen t valve => some ⟨0x32, t, be 2 valve⟩
  | .clearFault t valve position => some ⟨0x33, t, be 2 valve ++ be 1 position⟩
  | .isolate t segment call => some ⟨0x34, t, be 2 segment ++ be 2 call⟩
  | .release t isolation => some ⟨0x35, t, be 2 isolation⟩
  | .call t kind segment key grade => some ⟨0x40, t, be 1 kind ++ be 2 segment ++ be 4 key ++ be 1 grade⟩
  | .callEventOnSite t call => some ⟨0x41, t, be 2 call ++ be 1 0⟩
  | .callEventMadeSafe t call => some ⟨0x41, t, be 2 call ++ be 1 1⟩
  | .callEventClose t call => some ⟨0x41, t, be 2 call ++ be 1 2⟩
  | .crew t crew homeFeed shift => some ⟨0x42, t, be 2 crew ++ be 2 homeFeed ++ be 1 shift⟩
  | .assign t call crew => some ⟨0x43, t, be 2 call ++ be 2 crew⟩
  | .relight t segment count => some ⟨0x50, t, be 2 segment ++ be 2 count⟩
  | .settle t segment => some ⟨0x51, t, be 2 segment⟩
  | .screenSet t screen urgency scope care required =>
    some ⟨0x60, t, be 2 screen ++ be 1 urgency ++ be 2 scope ++ be 2 care ++ be 2 required⟩
  | .screenOff t screen => some ⟨0x61, t, be 2 screen⟩
  | .coldStart _ => none
  | .frameReceived _ => none
  | .frameGapAbandon => none
  | .transmitFrame => none
  | .pointIntervalExpiry _ => none
  | .orderTimeout _ => none
  | .timedHoldExpiry _ => none
  | .verifyDeadlineExpiry _ => none
  | .callDeadlineExpiry _ => none
  | .runSecondsAdvance => none

/-- The sizes of a request's fields by its kind (11 Table 11-5); AMEND's are those before its values. -/
def fieldSizes : List (Nat × List Nat) :=
  [(0x01, []), (0x02, []), (0x03, [4]), (0x04, []), (0x05, []), (0x06, [1, 2]), (0x07, [1, 2, 2]), (0x09, [2]),
    (0x10, [1, 2]), (0x12, []), (0x13, []), (0x14, []), (0x15, []), (0x16, []), (0x17, [])] ++
  [(0x20, [2, 2, 1]), (0x21, [2, 1]), (0x30, [2]), (0x31, [2, 4]), (0x32, [2]), (0x33, [2, 1]), (0x34, [2, 2]),
    (0x35, [2]), (0x40, [1, 2, 4, 1]), (0x41, [2, 1]), (0x42, [2, 2, 1]), (0x43, [2, 2]), (0x50, [2, 2]), (0x51, [2]),
    (0x60, [2, 1, 2, 2, 2]), (0x61, [2])]

/-- The request a kind and its field values name, for the kinds of fixed length. -/
def requestWith (kind : Nat) (t : Byte) (vs : List Nat) : Option Instr :=
  match kind, vs with
  | 0x01, [] => some (.ident t)
  | 0x02, [] => some (.status t)
  | 0x03, [a] => some (.setClock t a)
  | 0x04, [] => some (.restart t)
  | 0x05, [] => some (.fetch t)
  | 0x06, [a, b] => some (.read t a b)
  | 0x07, [a, b, c] => some (.list t a b c)
  | 0x09, [a] => some (.weather t a)
  | 0x10, [a, b] => some (.loadCursor t a b)
  | 0x12, [] => some (.loadRead t)
  | 0x13, [] => some (.commit t)
  | 0x14, [] => some (.forceLive t)
  | 0x15, [] => some (.enterMaintenance t)
  | 0x16, [] => some (.adopt t)
  | 0x17, [] => some (.abandon t)
  | 0x20, [a, b, c] => some (.sample t a b c)
  | 0x21, [a, b] => some (.valveReport t a b)
  | 0x30, [a] => some (.valveClose t a)
  | 0x31, [a, b] => some (.valveCloseTimed t a b)
  | 0x32, [a] => some (.valveOpen t a)
  | 0x33, [a, b] => some (.clearFault t a b)
  | 0x34, [a, b] => some (.isolate t a b)
  | 0x35, [a] => some (.release t a)
  | 0x40, [a, b, c, d] => some (.call t a b c d)
  | 0x41, [a, 0] => some (.callEventOnSite t a)
  | 0x41, [a, 1] => some (.callEventMadeSafe t a)
  | 0x41, [a, 2] => some (.callEventClose t a)
  | 0x42, [a, b, c] => some (.crew t a b c)
  | 0x43, [a, b] => some (.assign t a b)
  | 0x50, [a, b] => some (.relight t a b)
  | 0x51, [a] => some (.settle t a)
  | 0x60, [a, b, c, d, e] => some (.screenSet t a b c d e)
  | 0x61, [a] => some (.screenOff t a)
  | _, _ => none

/-- The request a frame carries. A CALL-EVENT frame whose event byte is none of the three names no row of the table;
`Sys2Proof.Machine.answerBadEvent` answers it (07 R132). -/
def requestOf (f : Frame) : Option Instr :=
  if f.kind = 0x08 then
    match fields [1, 2, 2] (f.payload.take 5) with
    | some [a, b, c] => some (.amend f.tag a b c (f.payload.drop 5))
    | _ => none
  else if f.kind = 0x11 then some (.loadPart f.tag f.payload)
  else ((fieldSizes.lookup f.kind.toNat).bind fun ns => fields ns f.payload).bind (requestWith f.kind.toNat f.tag)

/-! ### Loading parts (11 Table 11-6) -/

/-- The parts of a table's record (09 Table 9-3). -/
def TableId.parts : TableId → Nat
  | .segment => 3 | .valve => 2 | .point => 2 | .feed => 1

/-- The numbers of a table (00 Table 3); the cursor "at end" stands at this number. -/
def TableId.size : TableId → Nat
  | .segment => Config.segments | .valve => Config.valves | .point => Config.points | .feed => Config.feeds

/-- The ranges of a point's static fields, and its pair of limits (02 Table 2-1). -/
def PointStatic.ok (p : PointStatic) : Bool :=
  within 0 Config.maxPressure p.scaleLow && within 1 Config.maxPressure p.span && within 1 15 p.lockCount &&
    within 1 15 p.lossCount && within 0 4 p.shift && within 10 3600 p.interval &&
    within 0 Config.maxPressure p.substitute && within 0 Config.maxPressure p.high &&
    within 0 Config.maxPressure p.low && within 0 99999 p.hysteresis && decide (p.low ≤ p.high)

/-- The ranges of a segment's tunable fields (01 Table 1-1). -/
def SegStatic.tunableOk (s : SegStatic) : Bool :=
  within 0 4000 s.unitLoad && within 0 9999999 s.resistance && within 0 Config.maxPressure s.minimum &&
    within 0 99999 s.warn && within 0 9999 s.hysteresis && within 0 99999 s.deviation

/-- The ranges of the network constants (00 Table 5). -/
def Constants.ok (k : Constants) : Bool :=
  within 60 604800 k.attend1 && within 60 604800 k.attend2 && within 60 604800 k.attend3 &&
    within 60 604800 k.attend4 && within 2 8 k.cluster && within 2 8 k.doubt && within 300 86400 k.verify &&
    within 1 15 k.stable && within 1 15 k.anomaly

/-- A record number of a kind, or none for the absent number 0xFFFF; outside both, refused. -/
def optionalRef (size n : Nat) : Option (Option Nat) :=
  if n = 0xFFFF then some none else if n < size then some (some n) else none

/-- The range check of a part (09 R150 step 3): each field in its range, each pair in its order (01 Table 1-1, R4, R6;
02 Table 2-1; log 21). -/
def Part.ok : Part → Bool
  | .seg1 home customers load => within 0 (Config.feeds - 1) home && within 0 Config.customers customers && within 0 4000 load
  | .seg2 r => within 0 9999999 r
  | .seg3 minimum warn h d ext =>
    within 0 Config.maxPressure minimum && within 0 99999 warn && within 0 9999 h && within 0 99999 d &&
      ext.all fun p => within 0 (Config.points - 1) p
  | .valve1 kind a b =>
    within 0 (Config.segments - 1) a &&
      match kind with
      | .outlet => within 0 (Config.feeds - 1) b
      | .line => within 0 (Config.segments - 1) b
      | .tie => within 0 (Config.segments - 1) b
  | .valve2 timeout fb =>
    within 60 86400 timeout && decide (fb.length ≤ Config.fallbacks) && fb.all fun n => within 0 (Config.valves - 1) n
  | .point1 _ low span => within 0 Config.maxPressure low && within 1 Config.maxPressure span
  | .point2 lock loss shift interval _ sub high low h =>
    within 1 15 lock && within 1 15 loss && within 0 4 shift && within 10 3600 interval &&
      within 0 Config.maxPressure sub && within 0 Config.maxPressure high && within 0 Config.maxPressure low &&
      within 0 99999 h && decide (low ≤ high)
  | .feed1 point fail restore count =>
    within 0 (Config.points - 1) point && within 0 Config.maxPressure fail && within 0 Config.maxPressure restore &&
      within 1 15 count && decide (fail ≤ restore)

/-- The fields of a part from the bytes after its mark byte, when the length is that of the part at the cursor. -/
def partFields (table : TableId) (counter : Nat) (bs : List Byte) : Option Part :=
  match table, counter with
  | .segment, 0 =>
    match fields [2, 2, 2] bs with
    | some [home, customers, load] => some (.seg1 home customers load)
    | _ => none
  | .segment, 1 =>
    match fields [4] bs with
    | some [r] => some (.seg2 r)
    | _ => none
  | .segment, _ =>
    match fields [4, 4, 2, 4, 2] bs with
    | some [minimum, warn, h, d, ext] =>
      (optionalRef Config.points ext).map fun e => .seg3 minimum warn h d e
    | _ => none
  | .valve, 0 =>
    match fields [1, 2, 2] bs with
    | some [kind, a, b] => (ValveKind.ofCode kind).map fun k => .valve1 k a b
    | _ => none
  | .valve, _ =>
    match fields [4, 1] (bs.take 5) with
    | some [timeout, count] => (fields (List.replicate count 2) (bs.drop 5)).map fun fb => .valve2 timeout fb
    | _ => none
  | .point, 0 =>
    match fields [1, 4, 4] bs with
    | some [kind, low, span] => (PointKind.ofCode kind).map fun k => .point1 k low span
    | _ => none
  | .point, _ =>
    match fields [1, 1, 1, 2, 1, 4, 4, 4, 4] bs with
    | some [lock, loss, shift, interval, behaviour, sub, high, low, h] =>
      (LossBehaviour.ofCode behaviour).map fun b => .point2 lock loss shift interval b sub high low h
    | _ => none
  | .feed, _ =>
    match fields [2, 4, 4, 1] bs with
    | some [point, fail, restore, count] => some (.feed1 point fail restore count)
    | _ => none

/-- What a LOAD-PART content is: the absent mark, a part in its ranges, or neither (log 22). -/
inductive Content where
  | absent
  | part (p : Part)
  | bad
  deriving DecidableEq, Repr

def contentOf (table : TableId) (counter : Nat) (bs : List Byte) : Content :=
  match bs with
  | [] => .bad
  | mark :: rest =>
    if mark = 1 then if rest = [] then .absent else .bad
    else if mark = 0 then
      match partFields table counter rest with
      | some p => if p.ok then .part p else .bad
      | none => .bad
    else .bad

/-- A part as LOAD-READ returns it, mark byte included (11 R172). -/
def Part.bytes : Part → List Byte
  | .seg1 home customers load => byteOf 0 ++ be 2 home ++ be 2 customers ++ be 2 load
  | .seg2 r => byteOf 0 ++ be 4 r
  | .seg3 minimum warn h d ext => byteOf 0 ++ be 4 minimum ++ be 4 warn ++ be 2 h ++ be 4 d ++ refBytes ext
  | .valve1 kind a b => byteOf 0 ++ byteOf kind.code ++ be 2 a ++ be 2 b
  | .valve2 timeout fb => byteOf 0 ++ be 4 timeout ++ byteOf fb.length ++ fb.flatMap (be 2)
  | .point1 kind low span => byteOf 0 ++ byteOf kind.code ++ be 4 low ++ be 4 span
  | .point2 lock loss shift interval b sub high low h =>
    byteOf 0 ++ byteOf lock ++ byteOf loss ++ byteOf shift ++ be 2 interval ++ byteOf b.code ++ be 4 sub ++ be 4 high ++
      be 4 low ++ be 4 h
  | .feed1 point fail restore count => byteOf 0 ++ be 2 point ++ be 4 fail ++ be 4 restore ++ byteOf count

/-- The parts of a staged record at a number, in order; none when no record is staged there. -/
def Topology.partsAt (t : Topology) (table : TableId) (n : Nat) : Option (List Part) :=
  match table with
  | .segment =>
    (t.segs.lookup n).map fun s =>
      [.seg1 s.homeFeed s.customers s.unitLoad, .seg2 s.resistance,
        .seg3 s.minimum s.warn s.hysteresis s.deviation s.extremity]
  | .valve => (t.valves.lookup n).map fun v => [.valve1 v.kind v.sideA v.sideB, .valve2 v.timeout v.fallbacks]
  | .point =>
    (t.points.lookup n).map fun p =>
      [.point1 p.kind p.scaleLow p.span,
        .point2 p.lockCount p.lossCount p.shift p.interval p.loss p.substitute p.high p.low p.hysteresis]
  | .feed => (t.feeds.lookup n).map fun f => [.feed1 f.point f.failBelow f.restoreAt f.failCount]

/-- The staged record a full set of parts makes, written whole (09 R150). -/
def Topology.put (t : Topology) (n : Nat) (parts : List Part) : Topology :=
  match parts with
  | [.seg1 home customers load, .seg2 r, .seg3 minimum warn h d ext] =>
    { t with segs := putKey n ⟨home, customers, load, r, minimum, warn, h, d, ext⟩ t.segs }
  | [.valve1 kind a b, .valve2 timeout fb] => { t with valves := putKey n ⟨kind, a, b, timeout, fb⟩ t.valves }
  | [.point1 kind low span, .point2 lock loss shift interval b sub high lo h] =>
    { t with points := putKey n ⟨kind, low, span, lock, loss, shift, interval, b, sub, high, lo, h⟩ t.points }
  | [.feed1 point fail restore count] => { t with feeds := putKey n ⟨point, fail, restore, count⟩ t.feeds }
  | _ => t

/-- Deletes the staged record of a number. -/
def Topology.delete (t : Topology) (table : TableId) (n : Nat) : Topology :=
  match table with
  | .segment => { t with segs := dropKey n t.segs }
  | .valve => { t with valves := dropKey n t.valves }
  | .point => { t with points := dropKey n t.points }
  | .feed => { t with feeds := dropKey n t.feeds }

/-! ### AMEND (11 R171, Table 11-6) -/

/-- The sizes of the tunable fields of a record kind, in mask order (09 R157). -/
def amendSizes : RecordKind → Option (List Nat)
  | .segment => some [2, 4, 4, 4, 2, 4]
  | .point => some [4, 4, 1, 1, 1, 2, 1, 4, 4, 4, 4]
  | .engine => some [4, 4, 4, 4, 1, 1, 4, 1, 1]
  | .valve => none
  | .feed => none
  | .call => none
  | .crew => none
  | .isolation => none
  | .screen => none

/-- The fields a mask names, with their values, one option for each tunable field of the given sizes; none when the
mask names a field beyond them or the length disagrees with it. -/
def amendValues : List Nat → Nat → List Byte → Option (List (Option Nat))
  | [], mask, bs => if mask = 0 ∧ bs = [] then some [] else none
  | n :: ns, mask, bs =>
    if mask % 2 = 1 then
      if bs.length < n then none else (amendValues ns (mask / 2) (bs.drop n)).map (some (ofBe (bs.take n)) :: ·)
    else (amendValues ns (mask / 2) bs).map (none :: ·)

/-- A segment's static part with amended fields. -/
def SegStatic.amended (s : SegStatic) : List (Option Nat) → SegStatic
  | [a, b, c, d, e, f] =>
    { s with
      unitLoad := a.getD s.unitLoad
      resistance := b.getD s.resistance
      minimum := c.getD s.minimum
      warn := d.getD s.warn
      hysteresis := e.getD s.hysteresis
      deviation := f.getD s.deviation }
  | _ => s

/-- The constants with amended fields. -/
def Constants.amended (k : Constants) : List (Option Nat) → Constants
  | [a1, a2, a3, a4, c, d, v, s, a] =>
    { attend1 := a1.getD k.attend1, attend2 := a2.getD k.attend2, attend3 := a3.getD k.attend3,
      attend4 := a4.getD k.attend4, cluster := c.getD k.cluster, doubt := d.getD k.doubt, verify := v.getD k.verify,
      stable := s.getD k.stable, anomaly := a.getD k.anomaly }
  | _ => k

/-- The pending parameters an AMEND of a point names; none when the loss behaviour is beyond its list. -/
def pendingOf : List (Option Nat) → Option Pending
  | [a, b, c, d, e, f, g, h, i, j, k] =>
    match g.map LossBehaviour.ofCode with
    | some none => none
    | some (some l) => some ⟨a, b, c, d, e, f, some l, h, i, j, k⟩
    | none => some ⟨a, b, c, d, e, f, none, h, i, j, k⟩
  | _ => none

end Sys2Proof.Machine
end

