-- ==== Sys2Proof/Machine/Formats.lean ====
section
/-! DEFINITION. What the part returns of its records: the bodies of READ and FETCH (11 Table 11-7), the items of LIST,
and the fields of STATUS and IDENT (11 R174). -/
namespace Sys2Proof.Machine

/-! ### Sets -/

/-- Bytes 0 to `n - 1` of a bitmap: number `k` of the set is bit (k mod 8) of byte (k div 8) (11 R171). -/
def bitmap (n : Nat) (set : List Nat) : List Byte :=
  (List.range n).map fun j =>
    (set.filter fun k => k / 8 == j).foldl (fun b k => b ||| BitVec.ofNat 8 (2 ^ (k % 8))) 0

/-- A segment bitmap of 64 bytes. -/
def segBitmap (set : List Nat) : List Byte := bitmap 64 set

/-- A condition vector, care set or required-value set in 2 bytes. -/
def condBytes (c : CondSet) : List Byte := be 2 c.toNat

/-- Flags as the bits of one byte, bit 0 first. -/
def flagBits (fs : List Bool) : List Byte := byteOf (fs.foldr (fun b n => flag b + 2 * n) 0)

/-! ### Segment -/

/-- The five supply fields (11 R171: absent numbers and kinds, absent distance 0). -/
def supplyBytes (s : Supply) : List Byte :=
  byteOf s.code ++
    match s with
    | .fed l =>
      be 2 l.feed ++
        (match l.parent with
          | .seg n => byteOf RecordKind.segment.code ++ be 2 n
          | .feed n => byteOf RecordKind.feed.code ++ be 2 n) ++
        be 2 l.valve ++ be 2 l.dist
    | .unknown => refBytes none ++ codeBytes none ++ refBytes none ++ refBytes none ++ be 2 0
    | .unfed => refBytes none ++ codeBytes none ++ refBytes none ++ refBytes none ++ be 2 0

/-- A comparison run with its target, both 0 when there is none. -/
def runBytes : Option Run → List Byte
  | some r => byteOf r.count ++ byteOf r.target
  | none => byteOf 0 ++ byteOf 0

def causeBytes (c : OutageCause) : List Byte := byteOf c.code ++ refBytes c.num

/-- The nineteen bytes of an outage part; an absent stable target is a free value (log 31). -/
def Outage.bytes (p : Outage) : List Byte :=
  causeBytes p.cause ++ byteOf p.stage.code ++ be 2 p.off ++ be 2 p.relit ++ byteOf p.repeats ++ byteOf p.stable ++
    byteOf (p.target.getD (Config.absentStableTarget p.started.toNat p.off)) ++ be 2 p.reports ++ secBytes p.started ++ be 2 p.peak

/-- The eighteen bytes of a summary. -/
def Summary.bytes (s : Summary) : List Byte :=
  causeBytes s.cause ++ secBytes s.started ++ secBytes s.ended ++ be 2 s.peak ++ be 2 s.relit ++ be 2 s.settled ++
    byteOf s.repeats

def SegStatic.bytes (s : SegStatic) : List Byte :=
  be 2 s.homeFeed ++ be 2 s.customers ++ be 2 s.unitLoad ++ be 4 s.resistance ++ be 4 s.minimum ++ be 4 s.warn ++
    be 2 s.hysteresis ++ be 4 s.deviation ++ refBytes s.extremity

def Segment.body (g : Grid) (s : Segment) : List Byte :=
  s.st.bytes ++ supplyBytes s.supply ++ be 4 s.est.demand ++ be 4 s.est.flow ++ be 4 s.est.drop ++
    pressBytes (s.est.level.map (·.press)) ++ marginBytes (s.est.level.map (·.margin)) ++ byteOf (bandCode s.band) ++
    flagBits [s.est.anomaly, s.meshed, g.staleSeg s] ++ runBytes s.est.outside ++ runBytes s.est.inside ++
    condBytes s.conds ++ be 2 s.unrelit ++ be 2 s.onSupply ++ be 2 s.escapes ++ be 2 s.noSupply ++
    groupBytes 19 Outage.bytes s.outage ++ groupBytes 18 Summary.bytes s.summary

/-! ### Valve -/

/-- Number, target, issued time and deadline of an order. -/
def Order.bytes (o : Order) : List Byte :=
  byteOf o.num ++ byteOf o.target.code ++ secBytes o.issued ++ secBytes o.deadline

/-- An outstanding order with its presence byte. -/
def orderBytes : Option Order → List Byte := groupBytes 10 Order.bytes

/-- The operator hold (0 none, 1 plain, 2 timed) with the optional timed expiry. -/
def holdBytes : OperatorHold → List Byte
  | .none => byteOf 0 ++ timeBytes none
  | .plain => byteOf 1 ++ timeBytes none
  | .timed e => byteOf 2 ++ timeBytes (some e)

/-- The isolations of a holder set: their count, then their numbers, ascending. -/
def isosBytes (l : List Nat) : List Byte := byteOf l.length ++ l.flatMap (be 2)

/-- The fault latch; absent it is kind 0xFF and time 0. -/
def latchBytes : Option FaultLatch → List Byte
  | some f => byteOf f.kind.code ++ secBytes f.time
  | none => codeBytes none ++ be 4 0

def Valve.body (v : Valve) : List Byte :=
  byteOf v.st.kind.code ++ be 2 v.st.sideA ++ be 2 v.st.sideB ++ be 4 v.st.timeout ++ byteOf v.st.fallbacks.length ++
    ((v.st.fallbacks.map some ++ List.replicate (Config.fallbacks - v.st.fallbacks.length) none).flatMap refBytes) ++
    byteOf v.state.code ++ byteOf v.known.code ++
    flagBits [v.reopen, v.verified, v.unverified, v.uncommanded, v.moving] ++
    byteOf v.counter ++ orderBytes v.order ++ timeBytes v.verifyDeadline ++ latchBytes v.fault ++ holdBytes v.hold ++
    isosBytes v.isos

/-! ### Point and feed -/

/-- The pending mask: bit n for the n-th AMEND-able field of 02 Table 2-1. -/
def Pending.mask (p : Pending) : Nat :=
  [p.scaleLow.isSome, p.span.isSome, p.lockCount.isSome, p.lossCount.isSome, p.shift.isSome, p.interval.isSome,
    p.loss.isSome, p.substitute.isSome, p.high.isSome, p.low.isSome, p.hysteresis.isSome].foldr
    (fun b n => flag b + 2 * n) 0

/-- A pending value at its size, nothing when absent. -/
def pendingField (n : Nat) : Option Nat → List Byte
  | some v => be n v
  | none => []

/-- The pending values, in mask order. -/
def Pending.bytes (p : Pending) : List Byte :=
  pendingField 4 p.scaleLow ++ pendingField 4 p.span ++ pendingField 1 p.lockCount ++ pendingField 1 p.lossCount ++
    pendingField 1 p.shift ++ pendingField 2 p.interval ++ pendingField 1 (p.loss.map (·.code)) ++
    pendingField 4 p.substitute ++ pendingField 4 p.high ++ pendingField 4 p.low ++ pendingField 4 p.hysteresis

def PointStatic.bytes (p : PointStatic) : List Byte :=
  byteOf p.kind.code ++ be 4 p.scaleLow ++ be 4 p.span ++ byteOf p.lockCount ++ byteOf p.lossCount ++ byteOf p.shift ++
    be 2 p.interval ++ byteOf p.loss.code ++ be 4 p.substitute ++ be 4 p.high ++ be 4 p.low ++ be 4 p.hysteresis

def Point.body (p : Point) : List Byte :=
  p.st.bytes ++ byteOf p.lock.code ++ byteOf p.good ++ byteOf p.miss ++ pressBytes p.latest ++ pressBytes p.smoothed ++
    byteOf (flag p.fresh) ++ byteOf p.alarm.code ++ secBytes p.deadline ++ timeBytes p.lastSample ++ be 2 p.pend.mask ++
    p.pend.bytes

def Feed.body (f : Feed) : List Byte :=
  be 2 f.st.point ++ be 4 f.st.failBelow ++ be 4 f.st.restoreAt ++ byteOf f.st.failCount ++ byteOf f.presence.code ++
    byteOf f.low ++ byteOf f.high ++ pressBytes (f.input.map (·.value)) ++ codeBytes (f.input.map (·.source.code)) ++
    byteOf (flag f.stale) ++ pressBytes f.treeInput

/-! ### Call, crew, isolation, screen -/

def Call.body (c : Call) : List Byte :=
  byteOf c.kind.code ++ be 2 c.seg ++ be 4 c.key ++ byteOf c.base ++ byteOf c.eff ++ byteOf c.state.code ++
    secBytes c.received ++ secBytes c.deadline ++ flagBits [c.overdue, c.withdrawn, c.timerRuns] ++ byteOf c.repeats ++
    refBytes c.crew ++ numBytes c.iso

def Crew.body (c : Crew) : List Byte := refBytes c.home ++ byteOf c.state.code ++ numBytes c.call

def Entry.bytes (e : Entry) : List Byte :=
  be 2 e.valve ++ refBytes e.behind ++ byteOf (16 * e.role.code + e.status.code)

def Isolation.body (i : Isolation) : List Byte :=
  be 2 i.target ++ numBytes i.call ++ byteOf i.stage.code ++ secBytes i.started ++ timeBytes i.held ++
    byteOf (flag i.released) ++ byteOf i.plan.length ++ i.plan.flatMap Entry.bytes

/-- A screen with the segments of its two sets that the reply carries. -/
def Screen.body (entered left : List Nat) (sc : Screen) : List Byte :=
  byteOf (flag sc.enabled) ++ byteOf sc.urgency.code ++ refBytes sc.scope ++ condBytes sc.care ++
    condBytes sc.required ++ be 2 sc.matched.length ++ segBitmap entered ++ segBitmap left

/-- The segments of a set that a FETCH carries: at most 100, the lowest-numbered (10 R165). -/
def carried (set : List Nat) : List Nat := set.take 100

/-! ### Engine -/

/-- The nine constants in the order of 00 Table 5, at the sizes of 11 R171. -/
def Constants.bytes (k : Constants) : List Byte :=
  be 4 k.attend1 ++ be 4 k.attend2 ++ be 4 k.attend3 ++ be 4 k.attend4 ++ byteOf k.cluster ++ byteOf k.doubt ++
    be 4 k.verify ++ byteOf k.stable ++ byteOf k.anomaly

def Cursor.bytes (c : Cursor) : List Byte :=
  byteOf c.table.code ++ be 2 c.index ++ byteOf c.counter ++ byteOf c.dir.code

def Conflict.bytes (c : Conflict) : List Byte :=
  byteOf c.ref.kind.code ++ be 2 c.ref.num ++ byteOf c.reason.code

/-- The load cursor while a staging copy exists, and the last conflict, each with its presence byte. -/
def Engine.loadBytes (e : Engine) : List Byte :=
  groupBytes 5 Cursor.bytes (e.staging.map (·.cursor)) ++ groupBytes 4 Conflict.bytes e.conflict

def Engine.body (e : Engine) : List Byte :=
  byteOf e.state.code ++ secBytes e.run ++ secBytes e.offset ++ e.consts.bytes ++ be 2 e.weather ++ e.loadBytes

/-! ### READ and FETCH (11 R173) -/

/-- The body of a record, none when no record has the reference. `fetch` says that a screen's sets are those the reply
to a FETCH carries. -/
def Grid.body? (g : Grid) (fetch : Bool) (r : Ref) : Option (List Byte) :=
  match r.kind with
  | .segment => (g.seg? r.num).map (Segment.body g)
  | .valve => (g.valve? r.num).map Valve.body
  | .point => (g.point? r.num).map Point.body
  | .feed => (g.feed? r.num).map Feed.body
  | .call => (g.call? r.num).map Call.body
  | .crew => (g.crew? r.num).map Crew.body
  | .isolation => (g.iso? r.num).map Isolation.body
  | .screen =>
    (g.screen? r.num).map fun sc =>
      if fetch then sc.body (carried sc.entered) (carried sc.left) else sc.body sc.entered sc.left
  | .engine => if r.num = 0 then some g.engine.body else none

def Ref.bytes (r : Ref) : List Byte := byteOf r.kind.code ++ be 2 r.num

/-! ### LIST (11 R174) -/

/-- The items of a collection, each as its bytes, with the size of one item (10 Table 10-2). -/
structure Listing where
  size : Nat
  items : List (List Byte)
  deriving DecidableEq, Repr

def Grid.listQueue (g : Grid) : Listing :=
  ⟨11, g.queue.map fun c =>
    be 2 c.num ++ be 2 c.seg ++ byteOf c.kind.code ++ byteOf c.eff ++ secBytes c.deadline ++ byteOf (flag c.withdrawn)⟩

def Grid.listCalls (g : Grid) : Listing :=
  ⟨9, (g.calls.filter fun c => c.state.isOpen).map fun c =>
    be 2 c.num ++ be 2 c.seg ++ byteOf c.kind.code ++ byteOf c.state.code ++ byteOf c.eff ++ refBytes c.crew⟩

def Grid.listIsos (g : Grid) : Listing :=
  ⟨8, g.isos.map fun i =>
    be 2 i.num ++ be 2 i.target ++ byteOf i.stage.code ++ numBytes i.call ++ byteOf i.plan.length⟩

def Screen.listMatches (sc : Screen) : Listing := ⟨2, sc.matched.map (be 2)⟩

def Grid.listOutages (g : Grid) : Listing :=
  ⟨12, g.segs.filterMap fun s =>
    s.outage.map fun p =>
      be 2 s.num ++ byteOf p.stage.code ++ causeBytes p.cause ++ be 2 p.off ++ be 2 p.relit ++ be 2 p.reports⟩

/-- The parent of a listed segment, with its kind. -/
def parentBytes : Option Node → List Byte
  | some (.seg n) => byteOf RecordKind.segment.code ++ be 2 n
  | some (.feed n) => byteOf RecordKind.feed.code ++ be 2 n
  | none => codeBytes none ++ refBytes none

def Grid.listTree (f : Nat) (g : Grid) : Listing :=
  ⟨18, (g.tree f).map fun s =>
    be 2 s.num ++ parentBytes s.parent? ++ be 4 s.est.flow ++ pressBytes (s.est.level.map (·.press)) ++
      marginBytes (s.est.level.map (·.margin)) ++ byteOf (bandCode s.band)⟩

/-- The items a LIST reply carries from a start: up to 50, and no more than fit the payload after the outcome, the
total, the start and the count (10 R167, 11 R174). -/
def Listing.page (l : Listing) (start : Nat) : List (List Byte) :=
  (l.items.drop start).take (min 50 ((Config.payload - 6) / l.size))

def Listing.bytes (l : Listing) (start : Nat) : List Byte :=
  be 2 l.items.length ++ be 2 start ++ byteOf (l.page start).length ++ (l.page start).flatten

/-! ### STATUS and IDENT (10 R168, 11 R174) -/

def statusBytes (g : Grid) (l : Link) : List Byte :=
  byteOf g.engine.state.code ++ secBytes g.now ++ secBytes g.net ++ be 2 g.engine.weather ++ be 2 l.urgent.length ++
    be 2 l.routine.length ++ be 2 g.calls.length ++ byteOf g.isos.length ++ be 2 g.ordered.length ++ g.engine.loadBytes

/-- A name as a length byte and its ASCII characters. -/
def nameBytes (s : List Nat) : List Byte := byteOf s.length ++ s.map (BitVec.ofNat 8)

/-- "Tolurand", "Nivomel", "D740" (00; log 23). -/
def vendorName : List Nat := [0x54, 0x6F, 0x6C, 0x75, 0x72, 0x61, 0x6E, 0x64]
def familyName : List Nat := [0x4E, 0x69, 0x76, 0x6F, 0x6D, 0x65, 0x6C]
def partName : List Nat := [0x44, 0x37, 0x34, 0x30]

/-- The limits of 00 Table 4 in table order, the upper bound where the table gives a range. -/
def limits : List Nat :=
  [Config.segments, Config.valves, Config.touchingValves, Config.feeds, Config.points, Config.callRecords,
    Config.crews, Config.isolationRecords, Config.planEntries, Config.fallbacks, Config.screens, Config.customers,
    Config.payload, Config.heldRequests, Config.gapMilliseconds]

/-- The identity, with the format version 1. -/
def identBytes : List Byte :=
  nameBytes vendorName ++ nameBytes familyName ++ nameBytes partName ++ byteOf 1 ++ limits.flatMap (be 2)

end Sys2Proof.Machine
end

