-- ==== Sys2Proof/Machine/Link.lean ====
section
/-! DEFINITION. The control link (10): the receiver, the holding space, the transmit order, the answer to a request, and
the commands that come from the pins, the line and the clock. -/
namespace Sys2Proof.Machine

/-! ### Receiving (10 R162, R163) -/

/-- A REJECT joins the transmit order when it is produced. -/
def Link.reject (reason : RejectReason) (kind tag : Byte) (l : Link) : Link :=
  { l with transmit := l.transmit ++ [rejectFrame reason kind tag] }

/-- A request completed on the line: held when there is room, else discarded with reason OVERRUN. -/
def Link.hold (f : Frame) (l : Link) : Link :=
  if l.holding.length < Config.heldRequests then { l with holding := l.holding ++ [f] }
  else l.reject .overrun f.kind f.tag

/-- A complete frame is judged by its check, its kind and its length, in this order. `sum` is the sum of all its bytes
after START. -/
def Link.judge (sum : Byte) (f : Frame) (l : Link) : Link :=
  if sum ≠ 0 then l.reject .check f.kind f.tag
  else
    match requestKinds.lookup f.kind.toNat with
    | none => l.reject .kind f.kind f.tag
    | some lengths => if lengths.contains f.payload.length then l.hold f else l.reject .length f.kind f.tag

/-- One byte from the line. -/
def Link.takeByte (b : Byte) (l : Link) : Link :=
  match l.rx with
  | .hunting => if b = 0xD5 then { l with rx := .within [] } else l
  | .within bytes =>
    match bytes ++ [b] with
    | kind :: tag :: length :: rest =>
      if Config.payload < length.toNat then ({ l with rx := .hunting } : Link).reject .length kind tag
      else if length.toNat < rest.length then
        ({ l with rx := .hunting } : Link).judge (sumBytes (kind :: tag :: length :: rest))
          ⟨kind, tag, rest.take length.toNat⟩
      else { l with rx := .within (bytes ++ [b]) }
    | _ => { l with rx := .within (bytes ++ [b]) }

/-- One character: with a low stop bit it counts as no byte at all (10 R161). -/
def Link.takeChar (l : Link) (c : RxChar) : Link := if c.stop then l.takeByte c.data else l

/-! ### Answering (10 R163) -/

/-- The request leaves the holding space as it is taken, when it stands at its head (log 2). -/
def State.takeHeld (f : Frame) (s : State) : State :=
  match s.link.holding with
  | [] => s
  | h :: rest => if h = f then { s with link := { s.link with holding := rest } } else s

/-- A reply joins the tail of the transmit order. -/
def State.replied (f : Frame) (r : Reply) (s : State) : State :=
  { s with link := { s.link with transmit := s.link.transmit ++ [replyFrame f r] } }

/-- A frame is taken, handled, and answered after everything it causes. -/
def answerFrame (f : Frame) (h : State → State × Reply) (s : State) : State :=
  (h (s.takeHeld f)).1.replied f (h (s.takeHeld f)).2

/-- A request is taken, handled and answered. -/
def answer (i : Instr) (h : State → State × Reply) (s : State) : State :=
  match frameOf i with
  | some f => answerFrame f h s
  | none => s

/-! ### Events of the pins, the line and the clock -/

/-- COLD_START (09 R147, 10 R161): every table emptied, the engine EMPTY, the link cleared, the lines at rest. The
queue of commands is the sender's, and is no part of the D740. -/
def execColdStart (rate : BitVec 2) (s : State) : Host.Outcome State Fault Refusal :=
  .next { grid := .reset, link := .reset rate, pins := .reset, sent := none, pending := s.pending }

/-- FRAME_RECEIVED (10 R161 to R163). -/
def execFrameReceived (chars : List RxChar) (s : State) : Host.Outcome State Fault Refusal :=
  .next { s with link := chars.foldl Link.takeChar s.link }

/-- FRAME_GAP_ABANDON (10 R162): the partial frame is abandoned without any reply. -/
def execFrameGapAbandon (s : State) : Host.Outcome State Fault Refusal :=
  .next { s with link := { s.link with rx := .hunting } }

/-- The head of the transmit order is sent whole. -/
def State.transmit (s : State) : State :=
  match s.link.transmit with
  | [] => s
  | f :: rest => { s with link := { s.link with transmit := rest }, sent := some f.bytes }

/-- TRANSMIT_FRAME (10 R163). -/
def execTransmitFrame (s : State) : Host.Outcome State Fault Refusal := .next s.transmit

/-- RUN_SECONDS_ADVANCE (09 R158): run seconds advance by one and wrap; what falls due is taken by the expiry
commands (log 8). -/
def execRunSecondsAdvance (s : State) : Host.Outcome State Fault Refusal :=
  .next { s with grid := { s.grid with engine := { s.grid.engine with run := s.grid.engine.run + 1 } } }

/-! ### IDENT and STATUS (10 R168) -/

def doIdent (g : Grid) : Served := tell g .done identBytes

def execIdent (tag : Byte) (s : State) : Host.Outcome State Fault Refusal :=
  .next (answer (.ident tag) (atGrid doIdent) s)

def doStatus (s : State) : State × Reply := (s, ⟨.done, statusBytes s.grid s.link⟩)

def execStatus (tag : Byte) (s : State) : Host.Outcome State Fault Refusal := .next (answer (.status tag) doStatus s)

/-! ### SET-CLOCK (09 R158) -/

/-- The offset that makes network time the given time. -/
def Engine.setClock (time : Nat) (e : Engine) : Engine := { e with offset := BitVec.ofNat 32 time - e.run }

def doSetClock (time : Nat) (g : Grid) : Served :=
  let g' := { g with engine := g.engine.setClock time }
  ⟨g', [.post .engineClock 0 .routine], ⟨.done, secBytes g'.now ++ secBytes g'.net⟩⟩

def execSetClock (tag : Byte) (time : Nat) (s : State) : Host.Outcome State Fault Refusal :=
  .next (answer (.setClock tag time) (atGrid (doSetClock time)) s)

/-! ### FETCH (10 R165) -/

/-- The entry FETCH takes: the head of the urgent class or, when that is empty, of the routine class. -/
def Link.head? (l : Link) : Option (Notice × Urgency) :=
  match l.urgent, l.routine with
  | e :: _, _ => some (e, .urgent)
  | [], e :: _ => some (e, .routine)
  | [], [] => none

def Notice.holds (e : Notice) (k : Change) : Bool := e.changes &&& k.mask != 0

/-- The records after a FETCH: a screen's carried segments leave its sets; a final notice frees its record. -/
def Grid.afterFetch (e : Notice) (g : Grid) : Grid :=
  match e.ref.kind with
  | .screen =>
    g.onScreen e.ref.num fun sc => { sc with entered := sc.entered.drop 100, left := sc.left.drop 100 }
  | .call => if e.holds .callClosed then { g with calls := g.calls.filter fun c => c.num != e.ref.num } else g
  | .isolation => if e.holds .isoReleased then { g with isos := g.isos.filter fun i => i.num != e.ref.num } else g
  | .segment => g
  | .valve => g
  | .point => g
  | .feed => g
  | .crew => g
  | .engine => g

/-- The kinds that stay in the change set of a fetched screen, whose sets are as the FETCH leaves them. -/
def Screen.leftover (sc : Screen) : BitVec 16 :=
  (if sc.entered.isEmpty then 0 else Change.screenEntered.mask) |||
    (if sc.left.isEmpty then 0 else Change.screenLeft.mask)

/-- The kinds that stay in the change set of a fetched record: none, but for a screen. -/
def Grid.leftover (r : Ref) (g : Grid) : BitVec 16 :=
  if r.kind = .screen then
    match g.screen? r.num with
    | some sc => sc.leftover
    | none => 0
  else 0

def setKinds (r : Ref) (kinds : BitVec 16) (l : List Notice) : List Notice :=
  l.map fun e => if e.ref = r then { e with changes := kinds } else e

/-- The notice list after a FETCH: the entry goes, or stays at its place with the kinds left over. -/
def Link.afterFetch (r : Ref) (kinds : BitVec 16) (l : Link) : Link :=
  if kinds = 0 then { l with urgent := removeEntry r l.urgent, routine := removeEntry r l.routine }
  else { l with urgent := setKinds r kinds l.urgent, routine := setKinds r kinds l.routine }

/-- The whole of a FETCH of one entry. -/
def State.fetched (e : Notice) (s : State) : State :=
  { s with grid := s.grid.afterFetch e }.withLink (s.link.afterFetch e.ref ((s.grid.afterFetch e).leftover e.ref))

/-- The fields of a FETCH reply (11 R173). -/
def fetchBytes (e : Notice) (c : Urgency) (g : Grid) : List Byte :=
  e.ref.bytes ++ byteOf c.code ++ be 2 e.changes.toNat ++ (g.body? true e.ref).getD []

def doFetch (s : State) : State × Reply :=
  match s.link.head? with
  | none => (s, ⟨.noChange, []⟩)
  | some (e, c) => (s.fetched e, ⟨.done, fetchBytes e c s.grid⟩)

def execFetch (tag : Byte) (s : State) : Host.Outcome State Fault Refusal := .next (answer (.fetch tag) doFetch s)

/-! ### READ (10 R166) -/

/-- READ clears the fresh mark of a point it has returned (02 R36). -/
def Grid.afterRead (r : Ref) (g : Grid) : Grid :=
  if r.kind = .point then g.onPoint r.num fun p => { p with fresh := false } else g

def doRead (kind number : Nat) (g : Grid) : Served :=
  match RecordKind.ofCode kind with
  | none => refuse g .range
  | some k =>
    match g.body? false ⟨k, number⟩ with
    | none => refuse g .unknown
    | some body => ⟨g.afterRead ⟨k, number⟩, [], ⟨.done, Ref.bytes ⟨k, number⟩ ++ body⟩⟩

def execRead (tag : Byte) (kind number : Nat) (s : State) : Host.Outcome State Fault Refusal :=
  .next (answer (.read tag kind number) (atGrid (doRead kind number)) s)

/-! ### LIST (10 R167) -/

/-- The collection a LIST names, or the code that refuses it. -/
def Grid.listing (g : Grid) (which argument : Nat) : Code ⊕ Listing :=
  match which with
  | 0 => .inr g.listQueue
  | 1 => .inr g.listCalls
  | 2 => .inr g.listIsos
  | 3 =>
    match g.screen? argument with
    | some sc => .inr (if sc.enabled then sc.listMatches else ⟨2, []⟩)
    | none => .inl .unknown
  | 4 => .inr g.listOutages
  | 5 =>
    match g.feed? argument with
    | some f => .inr (if f.presence = .present then g.listTree argument else ⟨18, []⟩)
    | none => .inl .unknown
  | _ => .inl .range

def doList (which argument start : Nat) (g : Grid) : Served :=
  if g.engine.state.notLoaded then refuse g .notLive
  else
    match g.listing which argument with
    | .inl c => refuse g c
    | .inr l => tell g .done (l.bytes start)

def execList (tag : Byte) (which argument start : Nat) (s : State) : Host.Outcome State Fault Refusal :=
  .next (answer (.list tag which argument start) (atGrid (doList which argument start)) s)

/-! ### RESTART (09 R160, 10 R169, 02 R45, 05 R88, 07 R120, 08 R142) -/

/-- The engine state after a warm restart (09 Table 9-5). -/
def EngineState.restarted : EngineState → EngineState
  | .empty => .empty
  | .loading => .empty
  | .verifying => .verifying
  | .live => .live
  | .maintenance => .live
  | .adoptPending => .live

/-- The records after a warm restart: the engine, the freed final records, the telemetry unit, the trees its takeovers
reach, the vectors and the screens. DESIGN CHOICE (log 40): those recomputations do to a stable count what any does. -/
def Grid.restarted (g : Grid) : Grid :=
  (Work.start
      { g with
        engine := { g.engine with state := g.engine.state.restarted, staging := none }
        calls := g.calls.filter fun c => c.state != .closed
        isos := g.isos.filter fun i => !i.released }).restartTelemetry.recomputeAll.grid.monitorRestart

/-- The link after a warm restart: the receiver hunts, nothing is held, no notice stands; the transmit order is kept. -/
def Link.restarted (l : Link) : Link := { l with rx := .hunting, holding := [], urgent := [], routine := [] }

def doRestart (s : State) : State × Reply :=
  ({ s with grid := s.grid.restarted }.withLink s.link.restarted,
    ⟨.done, byteOf s.grid.engine.state.restarted.code⟩)

def execRestart (tag : Byte) (s : State) : Host.Outcome State Fault Refusal := .next (answer (.restart tag) doRestart s)

/-! ### A CALL-EVENT frame whose event byte is none of the three (07 R132) -/

/-- The answer to a held frame that names no row of the table: a CALL-EVENT of another event value is refused after the
checks of engine state and call number. -/
def doBadEvent (callNum : Nat) (g : Grid) : Served :=
  if g.engine.state.notLoaded then refuse g .notLive
  else if (g.call? callNum).isNone then refuse g .unknown
  else refuse g .range

def answerBadEvent (f : Frame) (s : State) : State :=
  answerFrame f (atGrid (doBadEvent (ofBe (f.payload.take 2)))) s

end Sys2Proof.Machine
end

