-- ==== Sys2Proof/Machine/Calls.lean ====
section
/-! DEFINITION. The requests and the timer of the call desk (07). -/
namespace Sys2Proof.Machine

/-! ### CALL (07 R122 to R125) -/

/-- The applied grade: clamped to 1..4 (07 R122). -/
def clampGrade (grade : Nat) : Nat := max 1 (min 4 grade)

/-- The merge test (07 R123): an open call of the same kind, segment and non-zero premises key. -/
def Grid.mergeWith (g : Grid) (kind : CallKind) (segment key : Nat) : Option Call :=
  if key = 0 then none
  else g.calls.find? fun c => c.state.isOpen && c.kind == kind && c.seg == segment && c.key == key

/-- The existing call after a merge (07 R123). -/
def Call.merge (k : Constants) (now : Sec) (grade : Nat) (c : Call) : Call :=
  let c' := { c with repeats := min 255 (c.repeats + 1) }
  if grade < c.base then
    ({ c' with base := grade, deadline := earlier now c.deadline (now + secs (k.attend grade)) } : Call).overdueIfPast now
  else c'

/-- Number, state, base and effective grades, and the applied grade (07 R123). -/
def mergedBytes (grade : Nat) (c : Call) : List Byte :=
  be 2 c.num ++ byteOf c.state.code ++ byteOf c.base ++ byteOf c.eff ++ byteOf grade

def mergeCall (c : Call) (grade : Nat) (g : Grid) : Served :=
  (((Work.start g).on (Grid.onCall c.num (Call.merge g.engine.consts g.now grade))).post .callRepeat c.num
      .routine).answered g .merged fun r =>
    mergedBytes grade ((r.call? c.num).getD (c.merge g.engine.consts g.now grade))

/-- A no-supply report counted into the outage part (06 R117). -/
def Segment.countReport (s : Segment) : Segment :=
  { s with outage := s.outage.map fun p => { p with reports := min 65535 (p.reports + 1) } }

/-- A NO-SUPPLY call into an outage (07 R124). -/
def reportNoSupply (segment grade : Nat) (g : Grid) : Served :=
  (((Work.start g).on (Grid.onSeg segment Segment.countReport)).post .segNoSupply segment .routine).answered g .merged
    fun _ => numBytes none ++ byteOf grade

/-- The record a CALL makes (07 Table 7-1). -/
def Grid.newCall (g : Grid) (kind : CallKind) (segment key grade : Nat) : Call where
  num := nextNumber Config.lastCallNumber (g.calls.map (·.num)) g.calls.length g.lastCall
  arrival := g.arrival + 1
  kind := kind
  seg := segment
  key := key
  base := grade
  eff := grade
  state := .waiting
  received := g.net
  deadline := g.now + secs (g.engine.consts.attend grade)
  overdue := false
  repeats := 0
  crew := none
  iso := none
  withdrawn := false

/-- The call table with a new record, its number and its arrival sequence used. Its effective grade is derived with
every other at the end of the event (07 R126, R127). -/
def Grid.addCall (c : Call) (g : Grid) : Grid :=
  { g with calls := insertBy (·.num) c g.calls, lastCall := c.num, arrival := c.arrival }

/-- Number, applied and effective grade, deadline, state and crew (07 R125). -/
def madeBytes (grade : Nat) (c : Call) : List Byte :=
  be 2 c.num ++ byteOf grade ++ byteOf c.eff ++ secBytes c.deadline ++ byteOf c.state.code ++ refBytes c.crew

/-- A CALL that needs a slot (07 R125). -/
def makeCall (kind : CallKind) (segment key grade : Nat) (g : Grid) : Served :=
  if Config.callRecords ≤ g.calls.length then ⟨g, [.post .engineCallRefused 0 .urgent], ⟨.full, []⟩⟩
  else
    let c := g.newCall kind segment key grade
    ((Work.start g).on (Grid.addCall c)).answered g .done fun r => madeBytes grade ((r.call? c.num).getD c)

/-- The segment has an outage part, in any stage. -/
def Segment.hasOutage (s : Segment) : Bool := s.outage.isSome

/-- CALL (07 R122): engine state, kind, segment, merge, outage, capacity. -/
def doCall (kind segment key grade : Nat) (g : Grid) : Served :=
  if g.engine.state.notLoaded then refuse g .notLive
  else
    match CallKind.ofCode kind, g.seg? segment with
    | none, _ => refuse g .range
    | some _, none => refuse g .unknown
    | some k, some s =>
      match g.mergeWith k segment key with
      | some c => mergeCall c (clampGrade grade) g
      | none =>
        if k = .noSupply ∧ s.hasOutage = true then reportNoSupply segment (clampGrade grade) g
        else makeCall k segment key (clampGrade grade) g

def execCall (tag : Byte) (kind segment key grade : Nat) (s : State) : Host.Outcome State Fault Refusal :=
  .next (answer (.call tag kind segment key grade) (atGrid (doCall kind segment key grade)) s)

/-! ### ASSIGN (07 R131) -/

/-- The crew's present call returns to WAITING without a crew. -/
def Grid.takeCrew (k : Crew) (g : Grid) : Grid :=
  match k.call with
  | some n => g.onCall n fun c => { c with state := .waiting, crew := none }
  | none => g

/-- The call's state and crew after an event, and the call the crew was taken from (07 R131). -/
def assignBytes (call : Nat) (taken : Option Nat) (r : Grid) : List Byte :=
  codeBytes ((r.call? call).map fun c => c.state.code) ++ refBytes ((r.call? call).bind fun c => c.crew) ++ numBytes taken

def doAssign (callNum crewNum : Nat) (g : Grid) : Served :=
  if g.engine.state.notLoaded then refuse g .notLive
  else
    match g.call? callNum, g.crew? crewNum with
    | some c, some k =>
      if c.state ≠ .waiting then refuse g .wrongState
      else if k.state = .offShift ∨ k.state = .onSite then refuse g .wrongState
      else
        ((Work.start g).on fun g => (g.takeCrew k).handOut callNum crewNum).answered g .done
          (assignBytes callNum k.call)
    | _, _ => refuse g .unknown

def execAssign (tag : Byte) (callNum crewNum : Nat) (s : State) : Host.Outcome State Fault Refusal :=
  .next (answer (.assign tag callNum crewNum) (atGrid (doAssign callNum crewNum)) s)

/-! ### CALL-EVENT (07 R132, R133) -/

/-- A CALL-EVENT is checked for engine state, call number and call state, and answered with the state it leaves. -/
def callEvent (callNum : Nat) (takenFrom : CallState → Bool) (f : Grid → Grid) (g : Grid) : Served :=
  if g.engine.state.notLoaded then refuse g .notLive
  else
    match g.call? callNum with
    | none => refuse g .unknown
    | some c =>
      if takenFrom c.state then
        ((Work.start g).on f).answered g .done fun r => codeBytes ((r.call? callNum).map fun c => c.state.code)
      else refuse g .wrongState

/-- The crew a call names becomes ON-SITE. -/
def Grid.crewOnSite (n : Option Nat) (g : Grid) : Grid :=
  match n with
  | some n => g.onCrew n fun k => { k with state := .onSite }
  | none => g

/-- The call and its crew become ON-SITE; the deadline timer stops with the state (07 R120, R132). -/
def Grid.arrive (callNum : Nat) (g : Grid) : Grid :=
  (g.crewOnSite ((g.call? callNum).bind fun c => c.crew)).onCall callNum fun c => { c with state := .onSite }

def doOnSite (callNum : Nat) (g : Grid) : Served := callEvent callNum (· == .assigned) (Grid.arrive callNum) g

def execCallEventOnSite (tag : Byte) (callNum : Nat) (s : State) : Host.Outcome State Fault Refusal :=
  .next (answer (.callEventOnSite tag callNum) (atGrid (doOnSite callNum)) s)

def doMadeSafe (callNum : Nat) (g : Grid) : Served := callEvent callNum (· == .onSite) (Grid.makeSafe callNum) g

def execCallEventMadeSafe (tag : Byte) (callNum : Nat) (s : State) : Host.Outcome State Fault Refusal :=
  .next (answer (.callEventMadeSafe tag callNum) (atGrid (doMadeSafe callNum)) s)

def doClose (callNum : Nat) (g : Grid) : Served := callEvent callNum (· != .closed) (Grid.closeCall callNum) g

def execCallEventClose (tag : Byte) (callNum : Nat) (s : State) : Host.Outcome State Fault Refusal :=
  .next (answer (.callEventClose tag callNum) (atGrid (doClose callNum)) s)

/-! ### CREW (07 R135) -/

/-- Shift ON, OFF (11 Table 11-5). -/
def shiftOfCode : Nat → Option Bool
  | 0 => some true | 1 => some false | _ => none

/-- The crew after the request: its home feed, and its shift. -/
def Crew.shifted (on : Bool) (home : Nat) (k : Crew) : Crew :=
  let k' := { k with home := some home }
  if on then { k' with state := if k.state = .offShift then .available else k.state }
  else { k' with state := .offShift, call := none }

/-- A crew on a call: OFF withdraws it. -/
def Crew.withdraws (on : Bool) (k : Crew) : Option Nat :=
  if !on && (k.state == .assigned || k.state == .onSite) then k.call else none

/-- The records after a CREW request that is taken (07 R135). -/
def Grid.shiftCrew (on : Bool) (home : Nat) (k : Crew) (g : Grid) : Grid :=
  let g' := g.onCrew k.num (Crew.shifted on home)
  match k.withdraws on with
  | some n => g'.onCall n (Call.withdraw g.now)
  | none => g'

/-- The crew's state, and after a withdrawal the number and state of the withdrawn call. -/
def crewBytes (crew : Nat) (withdrawn : Option Nat) (r : Grid) : List Byte :=
  codeBytes ((r.crew? crew).map fun k => k.state.code) ++
    match withdrawn with
    | some n => be 2 n ++ codeBytes ((r.call? n).map fun c => c.state.code)
    | none => []

/-- CREW (07 R135): engine state, crew, home feed, then the shift (11 R171). -/
def doCrew (crewNum homeFeed shift : Nat) (g : Grid) : Served :=
  if g.engine.state.notLoaded then refuse g .notLive
  else
    match g.crew? crewNum, g.feed? homeFeed with
    | some k, some _ =>
      match shiftOfCode shift with
      | none => refuse g .range
      | some on =>
        if k.shifted on homeFeed = k then tell g .noChange (byteOf k.state.code)
        else
          ((Work.start g).on (Grid.shiftCrew on homeFeed k)).answered g .done (crewBytes crewNum (k.withdraws on))
    | _, _ => refuse g .unknown

def execCrew (tag : Byte) (crewNum homeFeed shift : Nat) (s : State) : Host.Outcome State Fault Refusal :=
  .next (answer (.crew tag crewNum homeFeed shift) (atGrid (doCrew crewNum homeFeed shift)) s)

/-! ### The deadline (07 R136) -/

/-- CALL_DEADLINE_EXPIRY (07 R136). A timer that is stopped or has not run out has no expiry (log 6). -/
def callDeadlineExpiry (callNum : Nat) (s : State) : State :=
  match s.grid.call? callNum with
  | some c =>
    if c.timerRuns && reached s.grid.now c.deadline then
      s.happens ((Work.start s.grid).on (Grid.onCall callNum Call.becomeOverdue))
    else s
  | none => s

def execCallDeadlineExpiry (callNum : Nat) (s : State) : Host.Outcome State Fault Refusal :=
  .next (callDeadlineExpiry callNum s)

end Sys2Proof.Machine
end

