-- ==== Sys2Proof/Machine/Field.lean ====
section
/-! DEFINITION. Samples, field reports, the operator's valve requests and the timers of points and valves (02, 04). -/
namespace Sys2Proof.Machine

/-- EMPTY, LOADING or VERIFYING: requests of valves, isolations and restoration are refused NOT-LIVE (04 R70, 05 R92,
06 R114). -/
def EngineState.notInService (e : EngineState) : Bool := !e.inService

/-! ### Telemetry -/

/-- The fields of a SAMPLE reply (02 R27). -/
def sampleBytes (p : Point) : List Byte :=
  byteOf p.lock.code ++ byteOf p.miss ++ pressBytes p.latest ++ pressBytes p.smoothed

/-- SAMPLE (02 R27). -/
def doSample (point raw quality : Nat) (g : Grid) : Served :=
  if g.engine.state.notLoaded then refuse g .notLive
  else
    match g.point? point with
    | none => refuse g .unknown
    | some p =>
      ((Work.start g).sampled p raw quality).answered g .done fun r =>
        sampleBytes ((r.point? point).getD (p.takeSample g.now g.net raw quality))

def execSample (tag : Byte) (point raw quality : Nat) (s : State) : Host.Outcome State Fault Refusal :=
  .next (answer (.sample tag point raw quality) (atGrid (doSample point raw quality)) s)

/-- POINT_INTERVAL_EXPIRY (02 R33). A timer that has not run out has no expiry (log 6). -/
def pointIntervalExpiry (point : Nat) (s : State) : State :=
  match s.grid.point? point with
  | some p => if reached s.grid.now p.deadline then s.happens ((Work.start s.grid).pointExpired p) else s
  | none => s

def execPointIntervalExpiry (point : Nat) (s : State) : Host.Outcome State Fault Refusal :=
  .next (pointIntervalExpiry point s)

/-! ### Field reports -/

/-- The reports in the order of 11 Table 11-5. -/
def Report.ofCode : Nat → Option Report
  | 0 => some .opened | 1 => some .closed | 2 => some .moving | 3 => some .fault | _ => none

/-- What a report does to its valve in the engine state (04 R75). -/
def Grid.reported (g : Grid) (r : Report) : Valve → Valve :=
  if g.engine.state = .verifying then Valve.reportVerifying g.ctx r else Valve.report g.ctx r

/-- The fields of a VALVE-REPORT reply (04 R75). -/
def reportBytes (v : Valve) : List Byte := byteOf v.state.code ++ byteOf v.known.code ++ orderBytes v.order

/-- VALVE-REPORT (04 R75 to R78). DESIGN CHOICE (log 39): when the adoption that the report brings deletes the valve, the
reply carries the valve as the report left it. -/
def doValveReport (valve position : Nat) (g : Grid) : Served :=
  if g.engine.state.notLoaded then refuse g .notLive
  else
    match g.valve? valve, Report.ofCode position with
    | none, _ => refuse g .unknown
    | some _, none => refuse g .range
    | some v, some r =>
      if g.reported r v = v then tell g .noChange (reportBytes v)
      else
        ((Work.start g).on (Grid.valveEvent valve none (g.reported r))).answered g .done fun g' =>
          reportBytes ((g'.valve? valve).getD (g.reported r v))

def execValveReport (tag : Byte) (valve position : Nat) (s : State) : Host.Outcome State Fault Refusal :=
  .next (answer (.valveReport tag valve position) (atGrid (doValveReport valve position)) s)

/-! ### Operator requests (04 R70) -/

/-- The fields of an operator request's reply: state, known position, holder set, outstanding order (log 14). -/
def operatorBytes (v : Valve) : List Byte :=
  byteOf v.state.code ++ byteOf v.known.code ++ holdBytes v.hold ++ isosBytes v.isos ++ orderBytes v.order

/-- What an operator request's rule decides from the valve's state (04 R70 step 3). -/
inductive Decision where
  | refused (c : Code)
  | unchanged
  | change (c : Code) (f : Valve → Valve)

/-- The checks of 04 R70 around a request's own rule; `more` follows the valve's fields in the reply. A change issues an
order exactly when it advances the order counter (04 R68). -/
def operate (valve : Nat) (cleared : Option Position) (more : List Byte) (rule : Valve → Decision) (g : Grid) :
    Served :=
  if g.engine.state.notInService then refuse g .notLive
  else
    match g.valve? valve with
    | none => refuse g .unknown
    | some v =>
      match rule v with
      | .refused c => refuse g c
      | .unchanged => tell g .noChange (operatorBytes v ++ more)
      | .change c f =>
        if g.engine.state = .adoptPending ∧ (f v).counter ≠ v.counter then refuse g .busy
        else
          ((Work.start g).on (Grid.valveEvent valve cleared f)).answered g c fun g' =>
            operatorBytes ((g'.valve? valve).getD (f v)) ++ more

/-- VALVE-CLOSE by the valve's state (04 R71). -/
def decideClose (c : Ctx) (v : Valve) : Decision :=
  match v.state with
  | .opened => .change .done (Valve.addHolder c .plain)
  | .opening => .change .done (Valve.addHolder c .plain)
  | .closing => if v.hold = .plain ∧ v.reopen = false then .unchanged else .change .done (Valve.addHolder c .plain)
  | .closed => if v.hold = .plain then .unchanged else .change .done (Valve.addHolder c .plain)
  | .stuck => .refused .faultPending

def doValveClose (valve : Nat) (g : Grid) : Served := operate valve none [] (decideClose g.ctx) g

def execValveClose (tag : Byte) (valve : Nat) (s : State) : Host.Outcome State Fault Refusal :=
  .next (answer (.valveClose tag valve) (atGrid (doValveClose valve)) s)

/-- The applied duration of VALVE-CLOSE-TIMED (04 R72). -/
def appliedDuration (d : Nat) : Nat := max 60 (min 86400 d)

/-- VALVE-CLOSE-TIMED by the valve's state (04 R72). -/
def decideCloseTimed (c : Ctx) (d : Nat) (v : Valve) : Decision :=
  match v.state with
  | .opened => .change .done (Valve.addHolder c (.timed (c.now + secs d)))
  | .closing => .refused .busy
  | .opening => .refused .busy
  | .closed => .refused .wrongState
  | .stuck => .refused .faultPending

def doValveCloseTimed (valve duration : Nat) (g : Grid) : Served :=
  operate valve none (be 4 (appliedDuration duration)) (decideCloseTimed g.ctx (appliedDuration duration)) g

def execValveCloseTimed (tag : Byte) (valve duration : Nat) (s : State) : Host.Outcome State Fault Refusal :=
  .next (answer (.valveCloseTimed tag valve duration) (atGrid (doValveCloseTimed valve duration)) s)

/-- VALVE-OPEN by the valve's state (04 R73). -/
def decideOpen (c : Ctx) (v : Valve) : Decision :=
  match v.state with
  | .opened => .unchanged
  | .opening => .unchanged
  | .closing => .change (if v.isos.isEmpty then .done else .held) (Valve.dropHold c)
  | .closed => .change (if v.isos.isEmpty then .done else .held) (Valve.dropHold c)
  | .stuck => .refused .faultPending

def doValveOpen (valve : Nat) (g : Grid) : Served := operate valve none [] (decideOpen g.ctx) g

def execValveOpen (tag : Byte) (valve : Nat) (s : State) : Host.Outcome State Fault Refusal :=
  .next (answer (.valveOpen tag valve) (atGrid (doValveOpen valve)) s)

/-- CLEAR-FAULT by the valve's state (04 R74). -/
def decideClear (c : Ctx) (declared : Position) (v : Valve) : Decision :=
  match v.state with
  | .stuck => .change .done (Valve.clearFault c declared)
  | .opened => .refused .wrongState
  | .closing => .refused .wrongState
  | .closed => .refused .wrongState
  | .opening => .refused .wrongState

/-- CLEAR-FAULT; a declared position beyond the list is refused RANGE after the valve number (11 R171). -/
def doClearFault (valve position : Nat) (g : Grid) : Served :=
  match Position.ofCode position with
  | some p => operate valve (some p) [] (decideClear g.ctx p) g
  | none => operate valve none [] (fun _ => .refused .range) g

def execClearFault (tag : Byte) (valve position : Nat) (s : State) : Host.Outcome State Fault Refusal :=
  .next (answer (.clearFault tag valve position) (atGrid (doClearFault valve position)) s)

/-! ### Valve timers (04 section 4.6) -/

/-- A timer of a valve: when its deadline is reached, the valve controller handles the expiry; a timer that is stopped
or has not run out has none (log 6). -/
def valveTimer (valve : Nat) (deadline : Valve → Option Sec) (f : Ctx → Valve → Valve) (s : State) : State :=
  match s.grid.valve? valve with
  | some v =>
    if expired s.grid.now (deadline v) then
      s.happens ((Work.start s.grid).on (Grid.valveEvent valve none (f s.grid.ctx)))
    else s
  | none => s

/-- ORDER_TIMEOUT (04 R80, R81). -/
def execOrderTimeout (valve : Nat) (s : State) : Host.Outcome State Fault Refusal :=
  .next (valveTimer valve (fun v => v.order.map (·.deadline)) Valve.timeOut s)

/-- TIMED_HOLD_EXPIRY (04 R82). -/
def execTimedHoldExpiry (valve : Nat) (s : State) : Host.Outcome State Fault Refusal :=
  .next (valveTimer valve (fun v => v.hold.expiry?) Valve.dropHold s)

/-- The UNVERIFIED flag is set and the deadline removed (04 R83). -/
def Valve.unverify (_ : Ctx) (v : Valve) : Valve := { v with unverified := true, verifyDeadline := none }

/-- VERIFY_DEADLINE_EXPIRY (04 R83). -/
def execVerifyDeadlineExpiry (valve : Nat) (s : State) : Host.Outcome State Fault Refusal :=
  .next (valveTimer valve (fun v => v.verifyDeadline) Valve.unverify s)

end Sys2Proof.Machine
end

