-- ==== Sys2Proof/Machine/Loading.lean ====
section
/-! DEFINITION. The engine's own requests (09): the staging copy and its cursor, commit, entry to live service,
maintenance and adoption, amendment, and the weather factor. -/
namespace Sys2Proof.Machine

/-- A request that changes the engine record alone: what the record's difference posts is posted (09 R147). -/
def engineOnly (e : Engine) (g : Grid) (r : Reply) : Served := ⟨{ g with engine := e }, g.engine.acts e, r⟩

/-- The reply of INVALID and ENGAGED: record kind, number and reason (11 R170). -/
def refuseAt (g : Grid) (c : Code) (r : Ref) (reason : Nat) : Served := tell g c (r.bytes ++ byteOf reason)

/-- The reason codes of INVALID, in the order of 01 Table 1-5. -/
def InvalidReason.code : InvalidReason → Nat
  | .feedPoint => 0 | .pointShared => 1 | .homeFeed => 2 | .extremityPoint => 3 | .side => 4 | .self => 5
  | .fallback => 6 | .degree => 7 | .loop => 8 | .twoFeeds => 9 | .noFeed => 10 | .homeTree => 11

/-! ### The staging copy (09 section 9.2) -/

def Topology.empty : Topology := ⟨[], [], [], []⟩

/-- The staging copy; where none exists, an empty one with the cursor of ENTER-MAINTENANCE, which no request reaches. -/
def Grid.staged (g : Grid) : Staging := g.engine.staging.getD ⟨.empty, ⟨.segment, 0, 0, [], .read⟩⟩

/-- The states in which the staging copy is written, or the code that refuses a request there (09 Table 9-2). -/
def EngineState.refusesLoad : EngineState → Option Code
  | .empty => some .wrongState
  | .loading => none
  | .verifying => some .wrongState
  | .live => some .wrongState
  | .maintenance => none
  | .adoptPending => some .busy

def Grid.withStaging (stg : Staging) (g : Grid) : Engine := { g.engine with staging := some stg }

/-- The cursor past a complete record: the next index, or one past the last number ("at end"). -/
def Cursor.advance (d : Direction) (c : Cursor) : Cursor :=
  { c with index := c.index + 1, counter := 0, parts := [], dir := d }

def Cursor.atEnd (c : Cursor) : Bool := decide (c.table.size ≤ c.index)

/-- LOAD-CURSOR (09 R149). -/
def doLoadCursor (table index : Nat) (g : Grid) : Served :=
  match g.engine.state with
  | .verifying | .live => refuse g .wrongState
  | .adoptPending => refuse g .busy
  | .empty =>
    match TableId.ofCode table with
    | some t =>
      if t.size ≤ index then refuse g .range
      else
        engineOnly { g.withStaging ⟨.empty, ⟨t, index, 0, [], .write⟩⟩ with state := .loading } g ⟨.done, byteOf 0⟩
    | none => refuse g .range
  | .loading | .maintenance =>
    match TableId.ofCode table with
    | some t =>
      if t.size ≤ index then refuse g .range
      else
        engineOnly (g.withStaging ⟨g.staged.topo, ⟨t, index, 0, [], g.staged.cursor.dir⟩⟩) g
          ⟨.done, byteOf g.staged.cursor.counter⟩
    | none => refuse g .range

def execLoadCursor (tag : Byte) (table index : Nat) (s : State) : Host.Outcome State Fault Refusal :=
  .next (answer (.loadCursor tag table index) (atGrid (doLoadCursor table index)) s)

/-- The engagement check of LOAD-PART (09 R150 step 4): the reference refused ENGAGED, in MAINTENANCE only. -/
def Grid.engagedPart (g : Grid) (c : Cursor) (content : Content) : Option Ref :=
  if g.engine.state = .maintenance then
    match c.table, content with
    | .segment, .absent =>
      if (g.seg? c.index).any g.segEngaged then some ⟨.segment, c.index⟩ else none
    | .valve, .absent => if (g.valve? c.index).any Valve.engaged then some ⟨.valve, c.index⟩ else none
    | .valve, .part (.valve1 kind a b) =>
      if (g.valve? c.index).any fun v => v.inUse && (v.st.kind != kind || v.st.sideA != a || v.st.sideB != b) then
        some ⟨.valve, c.index⟩
      else none
    | _, _ => none
  else none

/-- The staging copy after a part that is taken (09 R150): a record is replaced whole, at its last part, so a point changes
its kind only when both its parts are sent (log 33). -/
def Staging.written (stg : Staging) (p : Part) : Staging :=
  let c := stg.cursor
  if c.counter + 1 = c.table.parts then ⟨stg.topo.put c.index (c.parts ++ [p]), c.advance .write⟩
  else ⟨stg.topo, { c with counter := c.counter + 1, parts := c.parts ++ [p], dir := .write }⟩

/-- The staging copy after the absent mark. -/
def Staging.erased (stg : Staging) : Staging :=
  ⟨stg.topo.delete stg.cursor.table stg.cursor.index, stg.cursor.advance .write⟩

/-- The two bytes of the reply to the absent mark, which no rule states (log 16). -/
def absentBytes (c : Cursor) : List Byte :=
  let r := Config.absentPartReply c.table.code c.index c.counter
  [r.1, r.2]

/-- LOAD-PART (09 R150). The cursor in its reply is table, index, counter and direction, without a presence byte
(log 38). -/
def doLoadPart (content : List Byte) (g : Grid) : Served :=
  match g.engine.state.refusesLoad with
  | some code => refuse g code
  | none =>
    let stg := g.staged
    let c := stg.cursor
    if c.counter ≠ 0 ∧ c.dir = .read then refuse g .sequence
    else if c.atEnd then refuse g .range
    else
      match contentOf c.table c.counter content, g.engagedPart c (contentOf c.table c.counter content) with
      | .bad, _ => refuse g .range
      | _, some r => refuseAt g .engaged r 4
      | .absent, none =>
        engineOnly (g.withStaging stg.erased) g ⟨.done, absentBytes c ++ stg.erased.cursor.bytes⟩
      | .part p, none =>
        engineOnly (g.withStaging (stg.written p)) g
          ⟨.done, byteOf (c.counter + 1) ++ byteOf (flag (c.counter + 1 == c.table.parts)) ++
            (stg.written p).cursor.bytes⟩

def execLoadPart (tag : Byte) (content : List Byte) (s : State) : Host.Outcome State Fault Refusal :=
  .next (answer (.loadPart tag content) (atGrid (doLoadPart content)) s)

/-- The cursor after a read of a part of a record with these parts: it holds the parts read so far (09 R149, R151). -/
def Cursor.afterRead (ps : List Part) (c : Cursor) : Cursor :=
  if c.counter + 1 < ps.length then { c with counter := c.counter + 1, parts := ps.take (c.counter + 1), dir := .read }
  else c.advance .read

/-- LOAD-READ (09 R151). -/
def doLoadRead (g : Grid) : Served :=
  match g.engine.state.refusesLoad with
  | some code => refuse g code
  | none =>
    let stg := g.staged
    let c := stg.cursor
    if c.counter ≠ 0 ∧ c.dir = .write then refuse g .sequence
    else if c.atEnd then refuse g .range
    else
      match stg.topo.partsAt c.table c.index with
      | none => engineOnly (g.withStaging ⟨stg.topo, c.advance .read⟩) g ⟨.done, byteOf 1⟩
      | some ps =>
        engineOnly (g.withStaging ⟨stg.topo, c.afterRead ps⟩) g
          ⟨.done, ((ps[c.counter]?).map Part.bytes).getD []⟩

def execLoadRead (tag : Byte) (s : State) : Host.Outcome State Fault Refusal :=
  .next (answer (.loadRead tag) (atGrid doLoadRead) s)

/-! ### Commit and entry to LIVE (09 section 9.3) -/

/-- COMMIT (09 R152). Of the four counts in its reply that of the feeds, at most 64, is one byte (11 R171). -/
def doCommit (g : Grid) : Served :=
  if g.engine.state ≠ .loading then refuse g .wrongState
  else if g.staged.cursor.counter ≠ 0 then refuse g .sequence
  else
    match g.staged.topo.invalid with
    | some e => refuseAt g .invalid e.ref e.reason.code
    | none =>
      ((Work.start g).on (Grid.committed g.staged.topo)).answered g .done fun r =>
        be 2 r.segs.length ++ be 2 r.valves.length ++ be 2 r.points.length ++ byteOf r.feeds.length

def execCommit (tag : Byte) (s : State) : Host.Outcome State Fault Refusal :=
  .next (answer (.commit tag) (atGrid doCommit) s)

/-- FORCE-LIVE (09 R153, 04 R87). -/
def doForceLive (g : Grid) : Served :=
  if g.engine.state ≠ .verifying then refuse g .wrongState
  else
    ((Work.start g).on fun g => { g with valves := g.valves.map Valve.forceNormal }).enterLive.answered g .done fun _ =>
      be 2 (g.valves.filter fun v => !v.verified).length

def execForceLive (tag : Byte) (s : State) : Host.Outcome State Fault Refusal :=
  .next (answer (.forceLive tag) (atGrid doForceLive) s)

/-! ### Maintenance and adoption (09 section 9.4) -/

/-- ENTER-MAINTENANCE (09 R154). -/
def doEnterMaintenance (g : Grid) : Served :=
  if g.engine.state ≠ .live then refuse g .wrongState
  else
    engineOnly { g.withStaging ⟨g.topology, ⟨.segment, 0, 0, [], .read⟩⟩ with state := .maintenance } g ⟨.done, []⟩

def execEnterMaintenance (tag : Byte) (s : State) : Host.Outcome State Fault Refusal :=
  .next (answer (.enterMaintenance tag) (atGrid doEnterMaintenance) s)

/-- ADOPT (09 R155, R156). -/
def doAdopt (g : Grid) : Served :=
  match g.engine.state with
  | .maintenance =>
    if g.staged.cursor.counter ≠ 0 then refuse g .sequence
    else
      match g.staged.topo.invalid with
      | some e => refuseAt g .invalid e.ref e.reason.code
      | none =>
        match g.conflict g.staged.topo with
        | some c => refuseAt g .engaged c.ref c.reason.code
        | none =>
          if g.ordered.isEmpty then
            ((Work.start g).adopt g.staged.topo).answered g .done fun r => byteOf r.engine.state.code
          else
            engineOnly { g.engine with state := .adoptPending } g
              ⟨.done, byteOf EngineState.adoptPending.code ++ be 2 g.ordered.length⟩
  | .adoptPending => refuse g .busy
  | .empty | .loading | .verifying | .live => refuse g .wrongState

def execAdopt (tag : Byte) (s : State) : Host.Outcome State Fault Refusal :=
  .next (answer (.adopt tag) (atGrid doAdopt) s)

/-- ABANDON (09 R154). -/
def doAbandon (g : Grid) : Served :=
  match g.engine.state with
  | .maintenance | .adoptPending =>
    engineOnly { g.engine with state := .live, staging := none, conflict := none } g ⟨.done, []⟩
  | .empty | .loading | .verifying | .live => refuse g .wrongState

def execAbandon (tag : Byte) (s : State) : Host.Outcome State Fault Refusal :=
  .next (answer (.abandon tag) (atGrid doAbandon) s)

/-! ### Amendment (09 R157) -/

/-- An amended segment: PARAMS is posted, and its tree is reached unless the deviation limit alone changed (03 R49). -/
def Work.amendSeg (s : Segment) (st : SegStatic) (w : Work) : Work :=
  let w' := (w.on (Grid.onSeg s.num fun r => { r with st := st })).post .segParams s.num .routine
  if { st with deviation := s.st.deviation } = s.st then w' else w'.reachSeg s.num .amend

/-- AMEND of a segment, with the fields its mask names. -/
def amendSegment (s : Segment) (vs : List (Option Nat)) (g : Grid) : Served :=
  let st := s.st.amended vs
  if !st.tunableOk then refuse g .range
  else if st = s.st then tell g .noChange []
  else ((Work.start g).amendSeg s st).answered g .done fun _ => []

/-- AMEND of a point: the values become pending parameters (02 R25, R28; log 17). -/
def amendPoint (p : Point) (vs : List (Option Nat)) (g : Grid) : Served :=
  match pendingOf vs with
  | none => refuse g .range
  | some new =>
    let pend := new.over p.pend
    if !(pend.apply p.st).ok then refuse g .range
    else if pend.apply p.st = p.pend.apply p.st then tell g .noChange []
    else
      ⟨g.onPoint p.num fun r => { r with pend := pend }, [.post .pointPending p.num .routine], ⟨.done, []⟩⟩

/-- AMEND of the engine's constants. -/
def amendEngine (vs : List (Option Nat)) (g : Grid) : Served :=
  let k := g.engine.consts.amended vs
  if !k.ok then refuse g .range
  else if k = g.engine.consts then tell g .noChange []
  else ((Work.start g).on fun g => { g with engine := { g.engine with consts := k } }).answered g .done fun _ => []

/-- The fields an AMEND names, handed on when the mask and the length agree with the record kind (11 R170). -/
def withAmended (kind : RecordKind) (mask : Nat) (values : List Byte) (g : Grid) (k : List (Option Nat) → Served) :
    Served :=
  match (amendSizes kind).bind fun sizes => amendValues sizes mask values with
  | some vs => k vs
  | none => refuse g .range

/-- AMEND (09 R157): engine state, kind, number, fields. -/
def doAmend (kind number mask : Nat) (values : List Byte) (g : Grid) : Served :=
  match g.engine.state, RecordKind.ofCode kind with
  | .empty, _ | .loading, _ => refuse g .notLive
  | .adoptPending, _ => refuse g .busy
  | .verifying, some .segment => refuse g .notLive
  | _, some .segment =>
    match g.seg? number with
    | some s => withAmended .segment mask values g fun vs => amendSegment s vs g
    | none => refuse g .unknown
  | _, some .point =>
    match g.point? number with
    | some p => withAmended .point mask values g fun vs => amendPoint p vs g
    | none => refuse g .unknown
  | _, some .engine =>
    if number = 0 then withAmended .engine mask values g fun vs => amendEngine vs g else refuse g .unknown
  | _, _ => refuse g .range

def execAmend (tag : Byte) (kind number mask : Nat) (values : List Byte) (s : State) :
    Host.Outcome State Fault Refusal :=
  .next (answer (.amend tag kind number mask values) (atGrid (doAmend kind number mask values)) s)

/-! ### Weather (09 R159) -/

/-- Every tree is reached with cause WEATHER (03 Table 3-2). -/
def Work.reachAll (c : TreeCause) (w : Work) : Work :=
  { w with causes := w.causes ++ w.grid.feeds.map fun f => (f.num, c) }

/-- WEATHER (09 R159). -/
def doWeather (factor : Nat) (g : Grid) : Served :=
  if g.engine.state.notLoaded then refuse g .notLive
  else
    let f := min 2000 factor
    if f = g.engine.weather then tell g .noChange (be 2 f)
    else
      (((Work.start g).on fun g => { g with engine := { g.engine with weather := f } }).reachAll .weather).answered g
        .done fun _ => be 2 f

def execWeather (tag : Byte) (factor : Nat) (s : State) : Host.Outcome State Fault Refusal :=
  .next (answer (.weather tag factor) (atGrid (doWeather factor)) s)

end Sys2Proof.Machine
end

