-- ==== Sys2Proof/Machine/Screens.lean ====
section
/-! DEFINITION. The requests for watch screens (08 R144, R145). -/
namespace Sys2Proof.Machine

/-- The scope of a SCREEN-SET: ALL for 0xFFFF, else a feed of the live table (11 R172). -/
def Grid.scopeOf (g : Grid) (scope : Nat) : Option (Option Nat) :=
  if scope = 0xFFFF then some none else if (g.feed? scope).isSome then some (some scope) else none

/-- A screen defined and enabled, its sets built from nothing over the segments (08 R144). -/
def Screen.define (urgency : Urgency) (scope : Option Nat) (care required : CondSet) (segs : List Segment)
    (sc : Screen) : Screen :=
  let sc' : Screen :=
    { num := sc.num, enabled := true, urgency := urgency, scope := scope, care := care, required := required &&& care,
      matched := [], entered := [], left := [] }
  let m := (segs.filter sc'.matches).map (·.num)
  { sc' with matched := m, entered := m }

/-- DEFINITION, and ENTERED when the new entered set is not empty. -/
def Screen.definedActs (sc : Screen) : List Act :=
  .post .screenDefinition sc.num .routine ::
    if sc.entered.isEmpty then [] else [.post .screenEntered sc.num sc.urgency]

/-- SCREEN-SET (08 R144): engine state, screen number, urgency, scope. Bits 13 to 15 of the two sets stand for no
condition (log 18). -/
def doScreenSet (screen urgency scope care required : Nat) (g : Grid) : Served :=
  if g.engine.state.notLoaded then refuse g .notLive
  else
    match g.screen? screen, Urgency.ofCode urgency, g.scopeOf scope with
    | none, _, _ => refuse g .unknown
    | some _, none, _ => refuse g .range
    | some _, some _, none => refuse g .unknown
    | some sc, some u, some f =>
      let sc' := sc.define u f (BitVec.ofNat 13 care) (BitVec.ofNat 13 required) g.segs
      ⟨g.onScreen screen fun _ => sc', sc'.definedActs, ⟨.done, be 2 sc'.matched.length⟩⟩

def execScreenSet (tag : Byte) (screen urgency scope care required : Nat) (s : State) :
    Host.Outcome State Fault Refusal :=
  .next (answer (.screenSet tag screen urgency scope care required) (atGrid (doScreenSet screen urgency scope care required)) s)

/-- A screen disabled: its definition kept, its sets emptied (08 R145). -/
def Screen.disable (sc : Screen) : Screen := { sc with enabled := false, matched := [], entered := [], left := [] }

/-- SCREEN-OFF (08 R145). -/
def doScreenOff (screen : Nat) (g : Grid) : Served :=
  if g.engine.state.notLoaded then refuse g .notLive
  else
    match g.screen? screen with
    | none => refuse g .unknown
    | some sc =>
      if sc.enabled then
        ⟨g.onScreen screen Screen.disable,
          [.post .screenDefinition screen .routine,
            .unmark ⟨.screen, screen⟩ (Change.screenEntered.mask ||| Change.screenLeft.mask)],
          ⟨.done, []⟩⟩
      else tell g .noChange []

def execScreenOff (tag : Byte) (screen : Nat) (s : State) : Host.Outcome State Fault Refusal :=
  .next (answer (.screenOff tag screen) (atGrid (doScreenOff screen)) s)

end Sys2Proof.Machine
end

