-- ==== Sys2Proof/Machine/Works.lean ====
section
/-! DEFINITION. Requests for isolations and for the restoration of supply (05, 06). -/
namespace Sys2Proof.Machine

/-! ### ISOLATE (05 R92 to R94) -/

/-- The check of a given call (05 R92 step 3): the code that refuses it. A call field of 0 gives no call. -/
def Grid.callRefusal (g : Grid) (callNum : Nat) : Option Code :=
  if callNum = 0 then none
  else
    match g.call? callNum with
    | none => some .unknown
    | some c => if c.state = .onSite then none else some .wrongState

/-- The stage of an isolation in a reply. -/
def stageBytes (n : Nat) (g : Grid) : List Byte := codeBytes ((g.iso? n).map fun i => i.stage.code)

/-- The number of entries of an isolation's plan. -/
def entriesBytes (n : Nat) (g : Grid) : List Byte := byteOf (((g.iso? n).map fun i => i.plan.length).getD 0)

/-- ISOLATE of a segment that is the target of an unreleased isolation already (05 R93). -/
def isolateAgain (i : Isolation) (callNum : Nat) (g : Grid) : Served :=
  if callNum = 0 then tell g .noChange (be 2 i.num ++ byteOf i.stage.code)
  else
    match i.call with
    | none =>
      ((Work.start g).on (Grid.linkCall i.num callNum)).answered g .noChange fun r => be 2 i.num ++ stageBytes i.num r
    | some other =>
      if other = callNum then
        ((Work.start g).on (Grid.awaitIsolation i.num callNum)).answered g .noChange fun r =>
          be 2 i.num ++ stageBytes i.num r ++ be 2 callNum
      else tell g .noChange (be 2 i.num ++ byteOf i.stage.code ++ be 2 other)

/-- A new isolation of a segment, linked with the given call, if any (05 R92, R94). -/
def Grid.isolate (segment callNum : Nat) (g : Grid) : Grid :=
  let g' := g.makeIsolation segment
  if callNum = 0 then g' else g'.linkCall g'.lastIso callNum

/-- The unreleased isolation of a target. -/
def Grid.isoOf (g : Grid) (segment : Nat) : Option Isolation := g.isos.find? fun i => i.target == segment && !i.released

/-- ISOLATE (05 R92): engine state, segment, call, existing isolation, capacity. -/
def doIsolate (segment callNum : Nat) (g : Grid) : Served :=
  match g.engine.state with
  | .empty | .loading | .verifying => refuse g .notLive
  | .adoptPending => refuse g .busy
  | .live | .maintenance =>
    match g.seg? segment, g.callRefusal callNum, g.isoOf segment with
    | none, _, _ => refuse g .unknown
    | some _, some c, _ => refuse g c
    | some _, none, some i => isolateAgain i callNum g
    | some _, none, none =>
      if Config.isolationRecords ≤ g.isos.length then refuse g .full
      else
        let n := (g.makeIsolation segment).lastIso
        ((Work.start g).on (Grid.isolate segment callNum)).answered g .done fun r =>
          be 2 n ++ stageBytes n r ++ entriesBytes n r

def execIsolate (tag : Byte) (segment callNum : Nat) (s : State) : Host.Outcome State Fault Refusal :=
  .next (answer (.isolate tag segment callNum) (atGrid (doIsolate segment callNum)) s)

/-! ### RELEASE (05 R101, R102) -/

/-- The plan valves of an isolation that meet a test of the valve before and after. -/
def Grid.countPlan (i : Isolation) (before after : Grid) (test : Valve → Valve → Bool) : Nat :=
  (i.plan.filter fun e =>
    match before.valve? e.valve, after.valve? e.valve with
    | some v, some w => test v w
    | _, _ => false).length

/-- The OPEN orders a release issued, and the reopen-pending marks it set. -/
def releaseBytes (i : Isolation) (before after : Grid) : List Byte :=
  be 2 i.num ++ byteOf (Grid.countPlan i before after fun v w => v.counter != w.counter) ++
    byteOf (Grid.countPlan i before after fun v w => !v.reopen && w.reopen)

/-- RELEASE (05 R101): engine state, isolation number, released mark. -/
def doRelease (isolation : Nat) (g : Grid) : Served :=
  if !g.engine.state.inService then refuse g .notLive
  else
    match g.iso? isolation with
    | none => refuse g .unknown
    | some i =>
      if i.released then refuse g .wrongState
      else
        ((Work.start g).on (Grid.releaseIso i)).answered g .done fun _ => releaseBytes i g (g.releaseIso i)

def execRelease (tag : Byte) (isolation : Nat) (s : State) : Host.Outcome State Fault Refusal :=
  .next (answer (.release tag isolation) (atGrid (doRelease isolation)) s)

/-! ### RELIGHT (06 R114) -/

/-- The count of a RELIGHT, clamped to 1..1,000. -/
def clampRelight (n : Nat) : Nat := max 1 (min 1000 n)

/-- The applied count: the lesser of the clamped count and those still to relight. -/
def Segment.relightCount (n : Nat) (s : Segment) : Nat :=
  match s.outage with
  | some p => min (clampRelight n) p.off
  | none => min (clampRelight n) s.unrelit

/-- The segment after `a` customers are relit: from the outage part, which ends when nobody is off (R116), or from the
unrelit count. -/
def Segment.relight (net : Sec) (a : Nat) (s : Segment) : Segment :=
  match s.outage with
  | some p =>
    let s' := { s with outage := some { p with off := p.off - a, relit := p.relit + a } }
    if p.off - a = 0 then s'.endOutage net 0 else s'
  | none => { s with unrelit := s.unrelit - a }

/-- Checks 3 to 5 of a RELIGHT (06 R114). -/
def Segment.relightRefusal (s : Segment) : Option Code :=
  if s.band = some .short then some .lowPressure
  else
    match s.outage with
    | some p => if p.stage = .relighting then none else some .wrongState
    | none => if s.supply = .unfed ∨ s.unrelit = 0 then some .wrongState else none

/-- Applied, off, relit and unrelit counts, and the band (06 R114); without a part the off count is 0 (R107) and the relit
count free (log 20). -/
def relightBytes (a : Nat) (s : Segment) : List Byte :=
  be 2 a ++ be 2 s.off ++ be 2 ((s.outage.map (·.relit)).getD (Config.relitWithoutPart s.num a s.unrelit)) ++ be 2 s.unrelit ++ byteOf (bandCode s.band)

def doRelight (segment count : Nat) (g : Grid) : Served :=
  if !g.engine.state.inService then refuse g .notLive
  else
    match g.seg? segment with
    | none => refuse g .unknown
    | some s =>
      match s.relightRefusal with
      | some c => refuse g c
      | none =>
        let a := s.relightCount count
        (((Work.start g).on (Grid.onSeg segment (Segment.relight g.net a))).reachSeg segment .customers).answered g .done
          fun r => relightBytes a ((r.seg? segment).getD s)

def execRelight (tag : Byte) (segment count : Nat) (s : State) : Host.Outcome State Fault Refusal :=
  .next (answer (.relight tag segment count) (atGrid (doRelight segment count)) s)

/-! ### SETTLE (06 R115) -/

/-- The segment after a settle: the off count joins the unrelit count, and the outage ends. -/
def Segment.settle (net : Sec) (s : Segment) : Segment := { s with unrelit := s.unrelit + s.off }.endOutage net s.off

def doSettle (segment : Nat) (g : Grid) : Served :=
  if !g.engine.state.inService then refuse g .notLive
  else
    match g.seg? segment with
    | none => refuse g .unknown
    | some s =>
      if s.outage.any fun p => p.stage == .relighting then
        ((Work.start g).on (Grid.onSeg segment (Segment.settle g.net))).answered g .done fun _ =>
          be 2 s.off ++ be 2 (s.unrelit + s.off)
      else refuse g .wrongState

def execSettle (tag : Byte) (segment : Nat) (s : State) : Host.Outcome State Fault Refusal :=
  .next (answer (.settle tag segment) (atGrid (doSettle segment)) s)

end Sys2Proof.Machine
end

