-- ==== Sys2Proof/Machine/Dispatch.lean ====
section
/-! DEFINITION. One arm for each command of the D740. -/
namespace Sys2Proof.Machine

def exec (i : Instr) (s : State) : Host.Outcome State Fault Refusal :=
  match i with
  | .coldStart rate => Sys2Proof.Machine.execColdStart rate s
  | .frameReceived chars => Sys2Proof.Machine.execFrameReceived chars s
  | .frameGapAbandon => Sys2Proof.Machine.execFrameGapAbandon s
  | .transmitFrame => Sys2Proof.Machine.execTransmitFrame s
  | .ident tag => Sys2Proof.Machine.execIdent tag s
  | .status tag => Sys2Proof.Machine.execStatus tag s
  | .setClock tag time => Sys2Proof.Machine.execSetClock tag time s
  | .restart tag => Sys2Proof.Machine.execRestart tag s
  | .fetch tag => Sys2Proof.Machine.execFetch tag s
  | .read tag kind number => Sys2Proof.Machine.execRead tag kind number s
  | .list tag which argument start => Sys2Proof.Machine.execList tag which argument start s
  | .amend tag kind number mask values => Sys2Proof.Machine.execAmend tag kind number mask values s
  | .weather tag factor => Sys2Proof.Machine.execWeather tag factor s
  | .loadCursor tag table index => Sys2Proof.Machine.execLoadCursor tag table index s
  | .loadPart tag content => Sys2Proof.Machine.execLoadPart tag content s
  | .loadRead tag => Sys2Proof.Machine.execLoadRead tag s
  | .commit tag => Sys2Proof.Machine.execCommit tag s
  | .forceLive tag => Sys2Proof.Machine.execForceLive tag s
  | .enterMaintenance tag => Sys2Proof.Machine.execEnterMaintenance tag s
  | .adopt tag => Sys2Proof.Machine.execAdopt tag s
  | .abandon tag => Sys2Proof.Machine.execAbandon tag s
  | .sample tag point raw quality => Sys2Proof.Machine.execSample tag point raw quality s
  | .pointIntervalExpiry point => Sys2Proof.Machine.execPointIntervalExpiry point s
  | .valveReport tag valve position => Sys2Proof.Machine.execValveReport tag valve position s
  | .valveClose tag valve => Sys2Proof.Machine.execValveClose tag valve s
  | .valveCloseTimed tag valve duration => Sys2Proof.Machine.execValveCloseTimed tag valve duration s
  | .valveOpen tag valve => Sys2Proof.Machine.execValveOpen tag valve s
  | .clearFault tag valve position => Sys2Proof.Machine.execClearFault tag valve position s
  | .orderTimeout valve => Sys2Proof.Machine.execOrderTimeout valve s
  | .timedHoldExpiry valve => Sys2Proof.Machine.execTimedHoldExpiry valve s
  | .verifyDeadlineExpiry valve => Sys2Proof.Machine.execVerifyDeadlineExpiry valve s
  | .isolate tag segment callNum => Sys2Proof.Machine.execIsolate tag segment callNum s
  | .release tag isolation => Sys2Proof.Machine.execRelease tag isolation s
  | .relight tag segment count => Sys2Proof.Machine.execRelight tag segment count s
  | .settle tag segment => Sys2Proof.Machine.execSettle tag segment s
  | .call tag kind segment key grade => Sys2Proof.Machine.execCall tag kind segment key grade s
  | .assign tag callNum crewNum => Sys2Proof.Machine.execAssign tag callNum crewNum s
  | .callEventOnSite tag callNum => Sys2Proof.Machine.execCallEventOnSite tag callNum s
  | .callEventMadeSafe tag callNum => Sys2Proof.Machine.execCallEventMadeSafe tag callNum s
  | .callEventClose tag callNum => Sys2Proof.Machine.execCallEventClose tag callNum s
  | .crew tag crewNum homeFeed shift => Sys2Proof.Machine.execCrew tag crewNum homeFeed shift s
  | .callDeadlineExpiry callNum => Sys2Proof.Machine.execCallDeadlineExpiry callNum s
  | .screenSet tag screen urgency scope care required => Sys2Proof.Machine.execScreenSet tag screen urgency scope care required s
  | .screenOff tag screen => Sys2Proof.Machine.execScreenOff tag screen s
  | .runSecondsAdvance => Sys2Proof.Machine.execRunSecondsAdvance s

end Sys2Proof.Machine
end

