-- ==== Sys2Proof/Machine/Step.lean ====
section
/-! DEFINITION. One step of the block: the command at the front of the queue, or the request at the head of the holding
space, or nothing (log 1). -/
namespace Sys2Proof.Machine

/-- The request at the head of the holding space is taken (10 R163). -/
def serveHeld (f : Frame) (s : State) : Host.Outcome State Fault Refusal :=
  match requestOf f with
  | some i => exec i s
  | none => .next (answerBadEvent f s)

/-- With no command waiting, the part takes the request at the head of its holding space, or idles. -/
def idle (s : State) : Host.Outcome State Fault Refusal :=
  match s.link.holding with
  | f :: _ => serveHeld f s
  | [] => .next s

/-- One step. -/
def step (s : State) : Host.Outcome State Fault Refusal :=
  match s.pending with
  | c :: rest => exec c { s with pending := rest }
  | [] => idle s

/-- `s` with the command a word spells at the front of its queue; no word spells one (log 28). -/
def State.withFetchWord (s : State) (nbits w : Nat) : State :=
  match decodeTableWord nbits w with
  | some c => { s with pending := c :: s.pending }
  | none => s

end Sys2Proof.Machine
end

