-- ==== Sys2Proof/Safety.lean ====
section
/-! DEFINITION. What counts as a sound state, in the terms the statements use: the notice list and its lines, the
capacities, the valves' marks, when a chain of passable valves supplies a segment, and the rows of 01 Table 1-5 and 09
Table 9-4, each said apart from the function that checks them. -/
namespace Sys2Proof.Machine

/-! ### The control link (10 R161, R163, R164) -/

/-- At most one entry for a record, and a record has an entry exactly when its change set is not empty (10 R164). -/
structure Link.NoticesSound (l : Link) : Prop where
  once : ((l.urgent ++ l.routine).map fun e => e.ref).Nodup
  kinds : ∀ e ∈ l.urgent ++ l.routine, e.changes ≠ 0

/-- The notice list is sound, NOTE and ALERT follow it, TXD idles between frames, and at most two requests are held. -/
structure State.LinkSound (s : State) : Prop where
  notices : s.link.NoticesSound
  note : s.pins.note = !(s.link.urgent.isEmpty && s.link.routine.isEmpty)
  alert : s.pins.alert = !s.link.urgent.isEmpty
  txd : s.pins.txd = true
  held : s.link.holding.length ≤ 2

/-! ### Tables -/

/-- The tables hold no more than 00 Table 4 gives, 256 calls and 32 isolations, and no two calls share a number
(07 R121). -/
structure Grid.WithinCapacity (g : Grid) : Prop where
  calls : g.calls.length ≤ 256
  isos : g.isos.length ≤ 32
  once : (g.calls.map fun c => c.num).Nodup

/-- No two isolations share a number; an unreleased isolation has the stage its entries give, and no valve stands twice in
its plan (05 R88 to R90). -/
structure Grid.IsosSound (g : Grid) : Prop where
  once : (g.isos.map fun i => i.num).Nodup
  stage : ∀ i ∈ g.isos, i.released = false → i.stage = stageOf i.plan
  plan : ∀ i ∈ g.isos, i.released = false → (i.plan.map fun e => e.valve).Nodup

/-- The known position follows the state of a valve that is not STUCK, and a verify deadline exists only while the valve
is CLOSED (04 R65). -/
def Valve.sound (v : Valve) : Bool :=
  (match v.state with
    | .opened => v.known == .opened
    | .closing => v.known == .opened
    | .closed => v.known == .closed
    | .opening => v.known == .closed
    | .stuck => true) &&
    (v.verifyDeadline.isNone || v.state == .closed)

def Grid.ValvesSound (g : Grid) : Prop := ∀ v ∈ g.valves, v.sound = true

/-- The engine's constants stand in their ranges (00 Table 5, 09 R157), and there is no call before a commit (07 R122). A
call that is not CLOSED names a segment of the live table (07 R122, 09 R150); a crew's call names the crew and is neither
WAITING nor done with it (07 R129 to R134); and a CLOSED change stands for a CLOSED call (07 R133, 10 R165). -/
structure State.CallsSound (s : State) : Prop where
  consts : s.grid.engine.consts.ok = true
  empty : s.grid.engine.state.notLoaded = true → s.grid.calls = []
  named : ∀ c ∈ s.grid.calls, c.state ≠ .closed → (s.grid.seg? c.seg).isSome = true
  crews : ∀ k ∈ s.grid.crews, ∀ n, k.call = some n → ∃ c ∈ s.grid.calls, c.num = n ∧ c.crew = some k.num ∧
    (c.state = .assigned ∨ c.state = .onSite ∨ c.state = .awaitingIsolation)
  final : ∀ e ∈ s.link.urgent ++ s.link.routine, e.ref.kind = .call → e.changes &&& Change.callClosed.mask ≠ 0 →
    ∃ c ∈ s.grid.calls, c.num = e.ref.num ∧ c.state = .closed

/-! ### Frames -/

/-- `h` is `g` but for what the end of an event derives in other blocks: the supply, estimate, outage, counts and vector
of segments; the tree inputs of feeds; the grade, state and crew of calls; the state and call of crews; the sets of
screens. Everything else is equal. -/
structure Grid.Follows (h g : Grid) : Prop where
  engine : h.engine = g.engine
  valves : h.valves = g.valves
  points : h.points = g.points
  isos : h.isos = g.isos
  lastCall : h.lastCall = g.lastCall
  arrival : h.arrival = g.arrival
  lastIso : h.lastIso = g.lastIso
  segs : (h.segs.map fun r => (r.num, r.st, r.unrelit)) = g.segs.map fun r => (r.num, r.st, r.unrelit)
  feeds : (h.feeds.map fun r => { r with treeInput := none }) = g.feeds.map fun r => { r with treeInput := none }
  calls : (h.calls.map fun r => { r with eff := 0, state := .waiting, crew := none }) =
    g.calls.map fun r => { r with eff := 0, state := .waiting, crew := none }
  crews : (h.crews.map fun r => (r.num, r.home)) = g.crews.map fun r => (r.num, r.home)
  screens : (h.screens.map fun r => { r with matched := [], entered := [], left := [] }) =
    g.screens.map fun r => { r with matched := [], entered := [], left := [] }

/-- The engine is in service and no adoption waits: LIVE or MAINTENANCE. -/
def Grid.AtWork (g : Grid) : Prop := g.engine.state = .live ∨ g.engine.state = .maintenance

/-- An event that leaves valve `n` as `w` brings no quiescence (04 R69): no adoption waits, some valve still has an order,
or none had one. -/
def Grid.NoQuiescence (g : Grid) (n : Nat) (w : Valve) : Prop :=
  g.AtWork ∨ w.order.isSome = true ∨ (∃ u ∈ g.valves, u.num ≠ n ∧ u.order.isSome = true) ∨ ∀ u ∈ g.valves, u.order = none

/-- The state after a request that changes no record and posts nothing: it is taken and answered. -/
def State.told (s : State) (f : Frame) (c : Code) (body : List Byte) : State := (s.takeHeld f).replied f ⟨c, body⟩

/-- A request has been answered: its reply, with the given kind, tag, outcome and fields, is the one frame that joined
the transmit order. -/
def State.Replies (s t : State) (kind tag : Byte) (c : Code) (body : List Byte) : Prop :=
  t.link.transmit = s.link.transmit ++ [⟨kind, tag, c.byte :: body⟩]

/-- A change stands in the change set of a record of its kind. -/
def State.Reports (s : State) (k : Change) (n : Nat) : Prop := changeSet ⟨k.record, n⟩ s.link &&& k.mask ≠ 0

/-- Bytes as characters on the line, each with a high stop bit. -/
def lineChars (bs : List Byte) : List RxChar := bs.map fun b => ⟨b, true⟩

/-- The table and the part counter a loading part belongs to (09 Table 9-3). -/
def Part.place : Part → TableId × Nat
  | .seg1 _ _ _ => (.segment, 0)
  | .seg2 _ => (.segment, 1)
  | .seg3 _ _ _ _ _ => (.segment, 2)
  | .valve1 _ _ _ => (.valve, 0)
  | .valve2 _ _ => (.valve, 1)
  | .point1 _ _ _ => (.point, 0)
  | .point2 _ _ _ _ _ _ _ _ _ => (.point, 1)
  | .feed1 _ _ _ _ => (.feed, 0)

/-- The input a feed takes from a point that is not LOCKED (02 Table 2-7): its smoothed value held, the substitute value, or
none; HOLD gives none to a point that has never locked (02 R41). -/
def Point.lossInput (p : Point) : Option Input :=
  match p.st.loss, p.smoothed with
  | .hold, some v => some ⟨v, .held⟩
  | .hold, none => none
  | .substitute, _ => some ⟨p.st.substitute, .substitute⟩
  | .drop, _ => none

/-! ### Supply trees (03 R54 to R57) -/

/-- Every member of feed `f`'s tree stands as a recomputation leaves it: its demand, its flow with its children's, its drop,
and its end pressure below the one its parent gives it, `p0` at the feed; with no `p0` it has no end pressure. -/
def Grid.Estimated (g : Grid) (f : Nat) (p0 : Option Nat) : Prop :=
  ∀ r ∈ g.segs, ∀ l : SupplyLink, r.supply = .fed l → l.feed = f →
    r.est.demand = r.onSupply * r.st.unitLoad * g.engine.weather / 1000 ∧
    r.est.flow = min 99999999 (r.est.demand +
      ((g.segs.filter fun c => c.parent? == some (.seg r.num)).map fun c => c.est.flow).sum) ∧
    r.est.drop = dropOf r.st.resistance r.est.flow ∧
    match p0 with
    | none => r.est.level = none
    | some p => ∃ level entry, r.est.level = some level ∧ level.press = entry - r.est.drop ∧
        level.margin = (level.press : Int) - r.st.minimum ∧
        match l.parent with
        | .feed _ => entry = p
        | .seg m => ((g.seg? m).bind fun q => q.est.level.map fun x => x.press) = some entry

/-! ### Adoption (09 R156) -/

/-- The isolations whose plan holds a valve in `h` and did not in `m`. -/
def Grid.gained (h m : Grid) (valve : Nat) : List Nat :=
  (m.isos.map fun i => i.num).filter fun k =>
    (m.iso? k).any (fun i => !i.holds valve) && (h.iso? k).any fun j => j.holds valve

/-- `h` is what an adoption of a copy in ascending order leaves of the records `m`: which records it keeps, with what state,
and what a new record starts with, table by table. -/
structure Grid.AdoptedFrom (h m : Grid) (t : Topology) : Prop where
  /-- A kept valve keeps its state, a new one is at rest in its normal position and UNVERIFIED (04 R64); then each
  isolation whose plan gained the valve is its holder (04 R66, 05 R104). -/
  valves : h.valves = t.valves.map fun r =>
    (h.gained m r.1).foldl (fun v k => v.addHolder m.ctx (.isolation k))
      (match m.valve? r.1 with
        | some v => { v with st := r.2 }
        | none =>
          { num := r.1, st := r.2, state := (match r.2.kind with | .tie => .closed | .line | .outlet => .opened),
            known := (match r.2.kind with | .tie => .closed | .line | .outlet => .opened), isos := [], hold := .none,
            order := none, counter := 0, reopen := false, verified := false, verifyDeadline := none, unverified := true,
            uncommanded := false, fault := none, moving := false })
  /-- A kept point keeps its state without its pending parameters; a new one stands as at its entry (02 R28, Table 2-2). -/
  points : h.points = t.points.map fun r =>
    match m.point? r.1 with
    | some p => { p with st := r.2, pend := {} }
    | none =>
      { num := r.1, st := r.2, lock := .seeking, good := 0, miss := 0, latest := none, smoothed := none, fresh := false,
        alarm := .normal, deadline := m.engine.run + BitVec.ofNat 32 r.2.interval, pend := {}, lastSample := none }
  /-- A kept feed keeps its state and, of another point, takes that point's input and stale flag with runs of 0; a new one
  takes them too, its presence UNKNOWN (02 R38, Table 2-5). -/
  feeds : (h.feeds.map fun f => { f with treeInput := none }) = t.feeds.map fun r =>
    let input := (h.point? r.2.point).bind fun p =>
      if p.lock = .locked then p.smoothed.map fun v => ⟨v, .live⟩ else p.lossInput
    let stale := !(h.point? r.2.point).any fun p => p.lock == .locked
    match m.feed? r.1 with
    | some f =>
      if f.st.point = r.2.point then { f with st := r.2, treeInput := none }
      else { f with st := r.2, low := 0, high := 0, input := input, stale := stale, treeInput := none }
    | none => ⟨r.1, r.2, .unknown, 0, 0, input, stale, none⟩
  /-- Every tree is recomputed (03 Table 3-2): that of a PRESENT feed with an input from it, which becomes the tree input;
  else the tree input stays, and a new feed has none (03 R47, R51; log 13). -/
  trees : ∀ f ∈ h.feeds,
    (∀ i, f.presence = .present → f.input = some i → h.Estimated f.num (some i.value) ∧ f.treeInput = some i.value) ∧
    (f.presence ≠ .present ∨ f.input = none → f.treeInput = (m.feed? f.num).bind fun q => q.treeInput)
  /-- A kept segment keeps its unrelit count and its summary (06 R106), a new one has neither. -/
  segs : (h.segs.map fun r => (r.num, r.st, r.unrelit, r.summary)) = t.segs.map fun r =>
    (r.1, r.2, ((m.seg? r.1).map fun q => q.unrelit).getD 0, (m.seg? r.1).bind fun q => q.summary)
  /-- A part that stays OFF counts every customer again (06 R119); a segment that becomes UNFED without a part opens one
  with cause INITIAL (06 R108, R109). -/
  outages : ∀ r ∈ h.segs, r.supply = .unfed →
    (∀ q p, m.seg? r.num = some q → q.outage = some p → p.stage = .off → r.outage = some
      { p with off := r.st.customers - r.unrelit, peak := max p.peak (r.st.customers - r.unrelit) }) ∧
    ((m.seg? r.num).any (fun q => q.outage.isSome || q.supply == .unfed) = false →
      r.outage = some ⟨.initial, .off, r.st.customers - r.unrelit, 0, 0, 0, none, 0, m.net, r.st.customers - r.unrelit⟩)
  /-- The crews stay (09 R156); only a hand-out, or the end of a MADE-SAFE call that names one, changes a crew. -/
  homes : (h.crews.map fun k => (k.num, k.home)) = m.crews.map fun k => (k.num, k.home)
  crews : m.IsosSound → (∀ c ∈ m.calls, c.state ≠ .waiting) → (∀ c ∈ m.calls, c.state = .madeSafe → c.crew = none) →
    h.crews = m.crews
  /-- A MADE-SAFE call on a deleted segment is closed (07 R120), where every call that is not CLOSED names a live segment, as
  `State.CallsSound` has it. -/
  madeSafe : m.WithinCapacity → (∀ c ∈ m.calls, c.state ≠ .closed → (m.seg? c.seg).isSome = true) →
    ∀ c ∈ m.calls, c.state = .madeSafe → (∀ st, (c.seg, st) ∉ t.segs) →
    ∃ c', h.call? c.num = some c' ∧ c'.state = .closed ∧ c'.crew = none ∧ c'.iso = none
  /-- An unreleased isolation gains a BOUNDARY entry for each touching valve that its plan lacks, by that valve's state, and
  FALLBACK entries behind its stuck ones; its stage and held time follow (05 R90, R97, R104). -/
  isos : ∀ k i, m.iso? k = some i → ∃ j more, h.iso? k = some j ∧ j.plan = i.plan ++ more ∧
    j = { i with call := j.call, plan := j.plan, stage := j.stage, held := j.held } ∧
    ((∀ c ∈ m.calls, c.state ≠ .madeSafe) → j.call = i.call) ∧
    (i.released = true → more = [] ∧ j.stage = i.stage ∧ j.held = i.held) ∧
    (i.released = false →
      ((more.filter fun e => e.role == .boundary).map fun e => e.valve) =
        ((h.touching i.target).map fun v => v.num).filter (fun n => !i.holds n) ∧
      (∀ e ∈ more, ∀ v, h.valve? e.valve = some v → (match e.role with
        | .boundary => e.behind = none ∧ e.status = (match v.state with
          | .closed => .closed
          | .stuck => if v.st.fallbacks = [] then .failed else .bypassed
          | .opened | .closing | .opening => .waiting)
        | .fallback => (∃ b w, e.behind = some b ∧ h.valve? b = some w ∧ w.state = .stuck ∧ e.valve ∈ w.st.fallbacks) ∧
          e.status = (match v.state with
            | .closed => .closed
            | .stuck => .failed
            | .opened | .closing | .opening => .waiting))) ∧
      j.stage = stageOf j.plan ∧
      j.held = (if j.stage = i.stage then i.held else if j.stage = .held then some m.net else none))

/-- What a waiting adoption comes to when quiescence is reported (09 R155, R156). `m` holds the records as the event's
resolution leaves them, against which the conflicts of the copy are checked again. -/
def State.AdoptsOrReturns (s t : State) (m : Grid) (topo : Topology) : Prop :=
  t.Reports .engineState 0 ∧
    match m.conflict topo with
    | some c =>
      t.grid.engine = { s.grid.engine with state := .maintenance, conflict := some c } ∧
        t.grid.topology = s.grid.topology ∧ t.Reports .engineConflict 0 ∧ t.pins.alert = true
    | none =>
      t.grid.engine = { s.grid.engine with state := .live, staging := none, conflict := none } ∧
        t.grid.topology = topo ∧ t.grid.AdoptedFrom m topo

/-! ### Chains (01 R1, R15, R16) -/

/-- A chain of `k` passable valves joins a segment to a PRESENT feed. Every node of the chain but its last is a segment of
the live table. -/
inductive Grid.Chain (g : Grid) : Nat → Nat → Prop where
  | byFeed (seg : Nat) (v : Valve) (fd : Feed) (hv : v ∈ g.valves) (hp : v.passable = true) (hf : fd ∈ g.feeds)
      (hs : fd.presence = .present) (ha : v.st.across seg = some (.feed fd.num)) : Grid.Chain g seg 1
  | bySegment (seg next k : Nat) (v : Valve) (hv : v ∈ g.valves) (hp : v.passable = true)
      (hm : next ∈ g.segs.map fun s => s.num) (ha : v.st.across seg = some (.seg next))
      (hn : Grid.Chain g next k) : Grid.Chain g seg (k + 1)

/-- A chain of passable valves joins a segment to a PRESENT feed. -/
def Grid.Supplied (g : Grid) (seg : Nat) : Prop := ∃ k, g.Chain seg k

/-- A node lies one valve nearer to a feed than a segment at distance `d`: a PRESENT feed at distance 0, or a segment
whose link in `sup` gives `d - 1` (01 R16). -/
def Grid.OneNearer (g : Grid) (sup : Nat → Supply) (d : Nat) : Node → Prop
  | .feed f => d = 1 ∧ ∃ fd ∈ g.feeds, fd.num = f ∧ fd.presence = .present
  | .seg m => ∃ l, sup m = .fed l ∧ d = l.dist + 1

/-! ### The loaded-topology rule, row by row (01 Table 1-5) -/

/-- Normally open valves with numbers in `P` join two nodes in one part of the forest (01 R10). -/
inductive Topology.Joined (t : Topology) (P : Nat → Prop) (x : Node) : Node → Prop where
  | same : Topology.Joined t P x x
  | fromA (n : Nat) (v : ValveStatic) (hv : (n, v) ∈ t.valves) (hn : P n) (ho : v.normal = .opened)
      (h : Topology.Joined t P x (.seg v.sideA)) : Topology.Joined t P x v.nodeB
  | fromB (n : Nat) (v : ValveStatic) (hv : (n, v) ∈ t.valves) (hn : P n) (ho : v.normal = .opened)
      (h : Topology.Joined t P x v.nodeB) : Topology.Joined t P x (.seg v.sideA)

/-- A record fails a check of Table 1-5: one constructor for each row, two for POINT-SHARED. -/
inductive Topology.Fails (t : Topology) : Ref → InvalidReason → Prop where
  | feedPoint (n : Nat) (f : FeedStatic) (h : (n, f) ∈ t.feeds) (hp : ∀ p, (f.point, p) ∈ t.points → p.kind ≠ .feed) :
      Topology.Fails t ⟨.feed, n⟩ .feedPoint
  | sharedFeed (n m : Nat) (f e : FeedStatic) (h : (n, f) ∈ t.feeds) (he : (m, e) ∈ t.feeds) (hm : m < n)
      (hp : e.point = f.point) : Topology.Fails t ⟨.feed, n⟩ .pointShared
  | homeFeed (n : Nat) (r : SegStatic) (h : (n, r) ∈ t.segs) (hf : ∀ f, (r.homeFeed, f) ∉ t.feeds) :
      Topology.Fails t ⟨.segment, n⟩ .homeFeed
  | extremityPoint (n p : Nat) (r : SegStatic) (h : (n, r) ∈ t.segs) (he : r.extremity = some p)
      (hp : ∀ q, (p, q) ∈ t.points → q.kind ≠ .extremity) : Topology.Fails t ⟨.segment, n⟩ .extremityPoint
  | sharedSegment (n p : Nat) (r : SegStatic) (h : (n, r) ∈ t.segs) (he : r.extremity = some p)
      (hp : (∃ m f, (m, f) ∈ t.feeds ∧ f.point = p) ∨ ∃ m q, (m, q) ∈ t.segs ∧ m < n ∧ q.extremity = some p) :
      Topology.Fails t ⟨.segment, n⟩ .pointShared
  | side (n : Nat) (v : ValveStatic) (h : (n, v) ∈ t.valves)
      (hs : (∀ r, (v.sideA, r) ∉ t.segs) ∨ v.kind ≠ .outlet ∧ (∀ r, (v.sideB, r) ∉ t.segs) ∨
        v.kind = .outlet ∧ ∀ f, (v.sideB, f) ∉ t.feeds) : Topology.Fails t ⟨.valve, n⟩ .side
  | self (n : Nat) (v : ValveStatic) (h : (n, v) ∈ t.valves) (hk : v.kind ≠ .outlet) (hs : v.sideB = v.sideA) :
      Topology.Fails t ⟨.valve, n⟩ .self
  | fallback (n : Nat) (v : ValveStatic) (h : (n, v) ∈ t.valves)
      (hf : (∃ m ∈ v.fallbacks, m = n ∨ ∀ u, (m, u) ∉ t.valves) ∨ ¬ v.fallbacks.Nodup) :
      Topology.Fails t ⟨.valve, n⟩ .fallback
  | degree (n : Nat) (r : SegStatic) (h : (n, r) ∈ t.segs)
      (hd : 8 < (t.valves.filter fun v => v.2.sideA == n || (v.2.kind != .outlet && v.2.sideB == n)).length) :
      Topology.Fails t ⟨.segment, n⟩ .degree
  | loop (n : Nat) (v : ValveStatic) (h : (n, v) ∈ t.valves) (hk : v.kind ≠ .tie)
      (hj : t.Joined (· < n) (.seg v.sideA) v.nodeB) : Topology.Fails t ⟨.valve, n⟩ .loop
  | twoFeeds (n e f : Nat) (v : ValveStatic) (h : (n, v) ∈ t.valves) (hk : v.kind ≠ .tie)
      (ha : t.Joined (· < n) (.seg v.sideA) (.feed e)) (hb : t.Joined (· < n) v.nodeB (.feed f)) :
      Topology.Fails t ⟨.valve, n⟩ .twoFeeds
  | noFeed (n : Nat) (r : SegStatic) (h : (n, r) ∈ t.segs)
      (hf : ∀ f, ¬ t.Joined (fun _ => True) (.seg n) (.feed f)) : Topology.Fails t ⟨.segment, n⟩ .noFeed
  | homeTree (n f : Nat) (r : SegStatic) (h : (n, r) ∈ t.segs) (hf : t.Joined (fun _ => True) (.seg n) (.feed f))
      (hh : ¬ t.Joined (fun _ => True) (.seg n) (.feed r.homeFeed)) : Topology.Fails t ⟨.segment, n⟩ .homeTree

/-- When a check is made (01 R7 to R11): the pass over the records it belongs to, the record, and its turn there. -/
def checkTurn (r : Ref) (x : InvalidReason) : Nat × Nat × Nat :=
  match x with
  | .feedPoint => (0, r.num, 0)
  | .pointShared => if r.kind = .feed then (0, r.num, 1) else (1, r.num, 2)
  | .homeFeed => (1, r.num, 0)
  | .extremityPoint => (1, r.num, 1)
  | .side => (2, r.num, 0)
  | .self => (2, r.num, 1)
  | .fallback => (2, r.num, 2)
  | .degree => (3, r.num, 0)
  | .loop => (4, r.num, 0)
  | .twoFeeds => (4, r.num, 1)
  | .noFeed => (5, r.num, 0)
  | .homeTree => (5, r.num, 1)

/-- One turn comes before another. -/
def sooner (a b : Nat × Nat × Nat) : Prop :=
  a.1 < b.1 ∨ a.1 = b.1 ∧ (a.2.1 < b.2.1 ∨ a.2.1 = b.2.1 ∧ a.2.2 < b.2.2)

/-! ### Adoption conflicts, row by row (09 Table 9-4) -/

/-- A record conflicts with a copy: one constructor for each row. -/
inductive Grid.Conflicts (g : Grid) (t : Topology) : Ref → ConflictReason → Prop where
  | segmentDeleted (r : Segment) (h : r ∈ g.segs)
      (he : (∃ i ∈ g.isos, i.target = r.num ∧ i.released = false) ∨ r.outage ≠ none ∨
        ∃ c ∈ g.calls, c.seg = r.num ∧ c.state ≠ .madeSafe ∧ c.state ≠ .closed)
      (ht : ∀ st, (r.num, st) ∉ t.segs) : Grid.Conflicts g t ⟨.segment, r.num⟩ .segmentDeleted
  | valveDeleted (v : Valve) (h : v ∈ g.valves)
      (he : v.isos ≠ [] ∨ v.hold ≠ .none ∨ v.order ≠ none ∨ v.state ≠ v.st.normal.rest)
      (ht : ∀ st, (v.num, st) ∉ t.valves) : Grid.Conflicts g t ⟨.valve, v.num⟩ .valveDeleted
  | valveChanged (v : Valve) (st : ValveStatic) (h : v ∈ g.valves) (he : v.isos ≠ [] ∨ v.hold ≠ .none ∨ v.order ≠ none)
      (ht : (v.num, st) ∈ t.valves) (hd : st.kind ≠ v.st.kind ∨ st.sideA ≠ v.st.sideA ∨ st.sideB ≠ v.st.sideB) :
      Grid.Conflicts g t ⟨.valve, v.num⟩ .valveChanged
  | customers (r : Segment) (st : SegStatic) (h : r ∈ g.segs) (ht : (r.num, st) ∈ t.segs)
      (hc : st.customers < r.off + r.unrelit) : Grid.Conflicts g t ⟨.segment, r.num⟩ .customers

/-! ### The network as the rules keep it -/

/-- The records of a copy stand in ascending number, none twice, table by table. -/
structure Topology.Ascending (t : Topology) : Prop where
  segs : (t.segs.map fun r => r.1).Pairwise (· < ·)
  valves : (t.valves.map fun r => r.1).Pairwise (· < ·)
  points : (t.points.map fun r => r.1).Pairwise (· < ·)
  feeds : (t.feeds.map fun r => r.1).Pairwise (· < ·)

/-- Records stand in ascending number, none twice, in the live tables and in the staging copy; no two feeds name one point
(01 R8); a copy that waits in ADOPT-PENDING is valid (09 R155); a valve is CLOSING or OPENING exactly when it has an
order (04 R68); in VERIFYING no valve has a holder or an order (04 R75); and in LIVE, MAINTENANCE and ADOPT-PENDING every
segment has the supply state a resolution gives (01 R16, R19). -/
structure Grid.NetworkSound (g : Grid) : Prop where
  segs : (g.segs.map fun r => r.num).Pairwise (· < ·)
  valves : (g.valves.map fun r => r.num).Pairwise (· < ·)
  points : (g.points.map fun r => r.num).Pairwise (· < ·)
  feeds : (g.feeds.map fun r => r.num).Pairwise (· < ·)
  crews : (g.crews.map fun r => r.num).Pairwise (· < ·)
  feedPoints : (g.feeds.map fun r => r.st.point).Nodup
  waiting : g.engine.state = .adoptPending → ∀ stg, g.engine.staging = some stg → stg.topo.invalid = none
  staged : ∀ stg, g.engine.staging = some stg → stg.topo.Ascending
  orders : ∀ v ∈ g.valves, v.order.isSome = true ↔ v.state = .closing ∨ v.state = .opening
  verifying : g.engine.state = .verifying → ∀ v ∈ g.valves, v.isos = [] ∧ v.hold = .none ∧ v.order = none
  supply : g.engine.state.inService = true → ∀ s ∈ g.segs, s.supply = supplyIn g.reachedSegs s.num

end Sys2Proof.Machine
end

