-- ==== Sys2Proof/WellFormed.lean ====
section
/-! DEFINITION. Well-formed commands: each operand fits the field that carries it (11 Tables 11-2 and 11-5), and the
record of an expiry has a number of its kind (00 Table 3). A well-formed command may still be refused by the part. -/
namespace Sys2Proof

/-- `x` fits a field of `bytes` bytes. -/
def fitsField (bytes x : Nat) : Bool := decide (x < 256 ^ bytes)

/-- The payload lengths of LOAD-PART (11 Table 11-2): 1, 5, 6..14, 17, 23. -/
def loadPartLength (n : Nat) : Bool :=
  n == 1 || n == 5 || (6 ≤ n && n ≤ 14) || n == 17 || n == 23

/-- The payload lengths of AMEND less its five fixed bytes (11 Table 11-2): 5..35 in all. -/
def amendLength (n : Nat) : Bool := n + 5 ≤ 35

def Instr.wellFormed : Instr → Bool
  | .coldStart _ => true
  | .frameReceived _ => true
  | .frameGapAbandon => true
  | .transmitFrame => true
  | .ident _ => true
  | .status _ => true
  | .setClock _ time => fitsField 4 time
  | .restart _ => true
  | .fetch _ => true
  | .read _ kind number => fitsField 1 kind && fitsField 2 number
  | .list _ which argument start => fitsField 1 which && fitsField 2 argument && fitsField 2 start
  | .amend _ kind number mask values =>
    fitsField 1 kind && fitsField 2 number && fitsField 2 mask && amendLength values.length
  | .weather _ factor => fitsField 2 factor
  | .loadCursor _ table index => fitsField 1 table && fitsField 2 index
  | .loadPart _ content => loadPartLength content.length
  | .loadRead _ => true
  | .commit _ => true
  | .forceLive _ => true
  | .enterMaintenance _ => true
  | .adopt _ => true
  | .abandon _ => true
  | .sample _ point raw quality => fitsField 2 point && fitsField 2 raw && fitsField 1 quality
  | .pointIntervalExpiry point => decide (point < Config.points)
  | .valveReport _ valve position => fitsField 2 valve && fitsField 1 position
  | .valveClose _ valve => fitsField 2 valve
  | .valveCloseTimed _ valve duration => fitsField 2 valve && fitsField 4 duration
  | .valveOpen _ valve => fitsField 2 valve
  | .clearFault _ valve position => fitsField 2 valve && fitsField 1 position
  | .orderTimeout valve => decide (valve < Config.valves)
  | .timedHoldExpiry valve => decide (valve < Config.valves)
  | .verifyDeadlineExpiry valve => decide (valve < Config.valves)
  | .isolate _ segment callNum => fitsField 2 segment && fitsField 2 callNum
  | .release _ isolation => fitsField 2 isolation
  | .relight _ segment count => fitsField 2 segment && fitsField 2 count
  | .settle _ segment => fitsField 2 segment
  | .call _ kind segment key grade =>
    fitsField 1 kind && fitsField 2 segment && fitsField 4 key && fitsField 1 grade
  | .assign _ callNum crewNum => fitsField 2 callNum && fitsField 2 crewNum
  | .callEventOnSite _ callNum => fitsField 2 callNum
  | .callEventMadeSafe _ callNum => fitsField 2 callNum
  | .callEventClose _ callNum => fitsField 2 callNum
  | .crew _ crewNum homeFeed shift => fitsField 2 crewNum && fitsField 2 homeFeed && fitsField 1 shift
  | .callDeadlineExpiry callNum => decide (1 ≤ callNum ∧ callNum ≤ Config.lastCallNumber)
  | .screenSet _ screen urgency scope care required =>
    fitsField 2 screen && fitsField 1 urgency && fitsField 2 scope && fitsField 2 care && fitsField 2 required
  | .screenOff _ screen => fitsField 2 screen
  | .runSecondsAdvance => true

end Sys2Proof
end

