-- ==== Sys2Proof/Certificates/Slice0/Obligations.lean ====
section
/-! DEFINITION. The statements for the provers, in the order of OBLIGATIONS.json. -/
open Sys2Proof Sys2Proof.Machine

/-! ### The queue, the link and the clock -/

/-- A step runs the command at the front of the queue: `step` is `exec` of it with the queue's rest. -/
def Obligations.StepTakesFront : Prop :=
  ∀ (c : Instr) (rest : List Instr) (s : State),
    step { s with pending := c :: rest } = exec c { s with pending := rest }

/-- With no command waiting, a step takes the request at the head of the holding space, or idles: the model's choice
(log 1). A held CALL-EVENT whose event is none of the three is answered as 07 R132 says. -/
def Obligations.IdleServesHolding : Prop :=
  ∀ s : State, s.pending = [] →
    (s.link.holding = [] → step s = .next s) ∧
    (∀ f rest i, s.link.holding = f :: rest → requestOf f = some i → step s = exec i s) ∧
    (∀ (tag : Byte) (n e : Nat) (rest : List Frame), n < 65536 → 3 ≤ e → e < 256 →
      s.link.holding = ⟨0x41, tag, be 2 n ++ be 1 e⟩ :: rest →
      step s = .next (s.told ⟨0x41, tag, be 2 n ++ be 1 e⟩
        (if s.grid.engine.state.notLoaded then .notLive else if (s.grid.call? n).isNone then .unknown else .range) []))

/-- Every command is carried out and leaves the queue alone; a request is answered by one reply with its kind plus 0x80
and its tag (10 R163), and an expiry or the clock leaves the link's own state alone. -/
def Obligations.EveryCommandCompletes : Prop :=
  ∀ (i : Instr) (s : State), ∃ t, exec i s = .next t ∧ t.pending = s.pending ∧
    (∀ f, frameOf i = some f →
      (∃ c body, s.Replies t (f.kind + 0x80) f.tag c body) ∧ t.sent = s.sent ∧ t.link.rate = s.link.rate ∧
        t.pins.txd = s.pins.txd ∧
        (f.kind ≠ 0x04 → t.link.rx = s.link.rx ∧
          t.link.holding = if s.link.holding.head? = some f then s.link.holding.tail else s.link.holding)) ∧
    (∀ n, i ∈ [.runSecondsAdvance, .pointIntervalExpiry n, .orderTimeout n, .timedHoldExpiry n,
        .verifyDeadlineExpiry n, .callDeadlineExpiry n] →
      t.link.rx = s.link.rx ∧ t.link.holding = s.link.holding ∧ t.link.transmit = s.link.transmit ∧
        t.link.rate = s.link.rate ∧ t.sent = s.sent ∧ t.pins.txd = s.pins.txd)

/-- COLD_START empties every table, resets engine, screens and link, and puts the lines at rest (09 R147, 10 R161).
`sent` is the model's own field (log 4); the reset state is this one with RATE1..0 at 00 (log 5). -/
def Obligations.ColdStartState : Prop :=
  (∀ (rate : BitVec 2) (s : State),
    exec (.coldStart rate) s = .next
      { grid :=
          { engine :=
              { state := .empty, run := 0, offset := 0, consts := ⟨3600, 7200, 43200, 86400, 3, 3, 3600, 4, 4⟩,
                weather := 1000, staging := none, conflict := none },
            segs := [], valves := [], points := [], feeds := [], calls := [], crews := [], isos := [],
            screens := (List.range 16).map fun n => ⟨n, false, .routine, none, 0, 0, [], [], []⟩,
            lastCall := 0, arrival := 0, lastIso := 0 },
        link := { rx := .hunting, holding := [], transmit := [], urgent := [], routine := [], rate := rate },
        pins := { txd := true, note := false, alert := false },
        sent := none,
        pending := s.pending }) ∧
  ∀ s : State, s.pending = [] → exec (.coldStart 0) s = .next State.reset

/-- A frame received by a hunting receiver is judged by its check, its kind and its length, in this order; a request is
held when fewer than two are held, and else discarded OVERRUN. Bytes before a START are ignored, a LENGTH above 240 is
rejected as it arrives, a character with a low stop bit counts as none, and the gap abandons a frame (10 R161 to
R163). -/
def Obligations.FrameReceptionJudged : Prop :=
  ∀ s : State,
    (∀ (kind tag check : Byte) (payload : List Byte), payload.length ≤ 240 → s.link.rx = .hunting →
      exec (.frameReceived (lineChars
          (0xD5 :: kind :: tag :: BitVec.ofNat 8 payload.length :: payload ++ [check]))) s =
        .next { s with link :=
          if kind + tag + BitVec.ofNat 8 payload.length + payload.foldr (· + ·) 0 + check ≠ 0 then
            { s.link with transmit := s.link.transmit ++ [⟨0xFF, tag, [1, kind]⟩] }
          else
            match requestKinds.lookup kind.toNat with
            | none => { s.link with transmit := s.link.transmit ++ [⟨0xFF, tag, [2, kind]⟩] }
            | some lengths =>
              if payload.length ∉ lengths then
                { s.link with transmit := s.link.transmit ++ [⟨0xFF, tag, [3, kind]⟩] }
              else if s.link.holding.length < 2 then
                { s.link with holding := s.link.holding ++ [⟨kind, tag, payload⟩] }
              else { s.link with transmit := s.link.transmit ++ [⟨0xFF, tag, [4, kind]⟩] } }) ∧
    (∀ chars : List RxChar, s.link.rx = .hunting → (∀ c ∈ chars, c.stop = false ∨ c.data ≠ 0xD5) →
      exec (.frameReceived chars) s = .next s) ∧
    (∀ kind tag length : Byte, s.link.rx = .within [kind, tag] → 240 < length.toNat →
      exec (.frameReceived [⟨length, true⟩]) s =
        .next { s with link := { s.link with
          rx := .hunting, transmit := s.link.transmit ++ [⟨0xFF, tag, [3, kind]⟩] } }) ∧
    (∀ chars : List RxChar, exec (.frameReceived chars) s = exec (.frameReceived (chars.filter fun c => c.stop)) s) ∧
    exec .frameGapAbandon s = .next { s with link := { s.link with rx := .hunting } }

/-- TRANSMIT_FRAME sends the head of the transmit order whole, with a CHECK that brings the sum to 0 (10 R163, 10.2).
That a frame goes out in one step is the model's choice (log 4). -/
def Obligations.TransmitSendsHead : Prop :=
  ∀ s : State,
    (s.link.transmit = [] → exec .transmitFrame s = .next s) ∧
    ∀ f rest, s.link.transmit = f :: rest → ∃ check : Byte,
      exec .transmitFrame s =
        .next { s with
          link := { s.link with transmit := rest },
          sent := some (0xD5 :: f.kind :: f.tag :: BitVec.ofNat 8 f.payload.length :: f.payload ++ [check]) } ∧
      f.kind + f.tag + BitVec.ofNat 8 f.payload.length + f.payload.foldr (· + ·) 0 + check = 0

/-- IDENT and STATUS change nothing and return the fields of 11 R174: IDENT the three names, the format version and the
limits of 00 Table 4 in table order; STATUS the engine, the notice counts, the record counts, the cursor and the last
conflict. Which part of the name is vendor, family and part is log 23's reading. -/
def Obligations.IdentAndStatusReply : Prop :=
  ∀ (tag : Byte) (s : State),
    let name (x : String) : List Byte := be 1 x.length ++ x.toList.map fun c => BitVec.ofNat 8 c.toNat
    (exec (.ident tag) s = .next (s.told ⟨0x01, tag, []⟩ .done
      (name "Tolurand" ++ name "Nivomel" ++ name "D740" ++ [1] ++
        [512, 1024, 8, 64, 768, 256, 48, 32, 40, 4, 16, 20000, 240, 2, 20].flatMap (be 2)))) ∧
    exec (.status tag) s = .next (s.told ⟨0x02, tag, []⟩ .done
      (be 1 s.grid.engine.state.code ++ be 4 s.grid.engine.run.toNat ++
        be 4 (s.grid.engine.run + s.grid.engine.offset).toNat ++ be 2 s.grid.engine.weather ++
        be 2 s.link.urgent.length ++ be 2 s.link.routine.length ++ be 2 s.grid.calls.length ++
        be 1 s.grid.isos.length ++ be 2 (s.grid.valves.filter fun v => v.order.isSome).length ++
        groupBytes 5 Cursor.bytes (s.grid.engine.staging.map fun g => g.cursor) ++
        groupBytes 4 Conflict.bytes s.grid.engine.conflict))

/-- Run seconds advance by one and wrap; SET-CLOCK moves the offset alone, so that network time is the given time
(09 R158). That an advance takes no expiry itself is log 8. -/
def Obligations.ClocksAdvanceAndSet : Prop :=
  ∀ s : State,
    (exec .runSecondsAdvance s =
      .next { s with grid := { s.grid with engine := { s.grid.engine with run := s.grid.engine.run + 1 } } }) ∧
    (s.grid.engine.run = 4294967295 → s.grid.engine.run + 1 = 0) ∧
    ∀ (tag : Byte) (time : Nat), time < 4294967296 → ∃ t o, exec (.setClock tag time) s = .next t ∧
      t.grid = { s.grid with engine := { s.grid.engine with offset := o } } ∧
      s.grid.engine.run + o = BitVec.ofNat 32 time ∧
      s.Replies t 0x83 tag .done (be 4 s.grid.engine.run.toNat ++ be 4 time) ∧ t.Reports .engineClock 0

/-- FETCH takes the head of the urgent class, or of the routine class when that is empty; the entry goes, a final notice
frees its record, and the lines follow (10 R164, R165). Screens are `FetchContinuesScreen`'s. The values of the marks in a body are log 42's. -/
def Obligations.FetchTakesHead : Prop :=
  ∀ (tag : Byte) (s : State),
    (s.link.urgent = [] → s.link.routine = [] → exec (.fetch tag) s = .next (s.told ⟨0x05, tag, []⟩ .noChange [])) ∧
    ∀ (e : Notice) (cls : Urgency) (us rs : List Notice) (body : List Byte), s.link.NoticesSound →
      (cls = .urgent ∧ s.link.urgent = e :: us ∧ s.link.routine = rs ∨
        cls = .routine ∧ s.link.urgent = [] ∧ us = [] ∧ s.link.routine = e :: rs) →
      e.ref.kind ≠ .screen → s.grid.body? true e.ref = some body →
      ∃ t, exec (.fetch tag) s = .next t ∧ t.link.urgent = us ∧ t.link.routine = rs ∧
        t.pins = { s.pins with note := !(us.isEmpty && rs.isEmpty), alert := !us.isEmpty } ∧
        t.grid =
          (if e.ref.kind = .call ∧ e.changes &&& Change.callClosed.mask ≠ 0 then
            { s.grid with calls := s.grid.calls.filter fun c => c.num != e.ref.num }
          else if e.ref.kind = .isolation ∧ e.changes &&& Change.isoReleased.mask ≠ 0 then
            { s.grid with isos := s.grid.isos.filter fun i => i.num != e.ref.num }
          else s.grid) ∧
        s.Replies t 0x85 tag .done
          (be 1 e.ref.kind.code ++ be 2 e.ref.num ++ be 1 cls.code ++ be 2 e.changes.toNat ++ body)

/-- FETCH of a screen carries and removes at most 100 segments of each set, the lowest-numbered; the entry stays at its
place with ENTERED and LEFT for the sets that still hold segments (10 R165, 08 R143). The value of the enabled mark in the
body is log 42's. -/
def Obligations.FetchContinuesScreen : Prop :=
  ∀ (tag : Byte) (n : Nat) (changes kinds : BitVec 16) (sc : Screen) (cls : Urgency) (us rs : List Notice) (s : State),
    s.link.NoticesSound → s.grid.screen? n = some sc →
    (cls = .urgent ∧ s.link.urgent = ⟨⟨.screen, n⟩, changes⟩ :: us ∧ s.link.routine = rs ∨
      cls = .routine ∧ s.link.urgent = [] ∧ us = [] ∧ s.link.routine = ⟨⟨.screen, n⟩, changes⟩ :: rs) →
    kinds = ((if sc.entered.length ≤ 100 then 0 else Change.screenEntered.mask) |||
      (if sc.left.length ≤ 100 then 0 else Change.screenLeft.mask)) →
    ∃ t, exec (.fetch tag) s = .next t ∧
      t.grid = s.grid.onScreen n (fun r => { r with entered := r.entered.drop 100, left := r.left.drop 100 }) ∧
      t.link.urgent =
        (if cls = .urgent then (if kinds = 0 then us else ⟨⟨.screen, n⟩, kinds⟩ :: us) else us) ∧
      t.link.routine =
        (if cls = .urgent then rs else (if kinds = 0 then rs else ⟨⟨.screen, n⟩, kinds⟩ :: rs)) ∧
      s.Replies t 0x85 tag .done
        (be 1 7 ++ be 2 n ++ be 1 cls.code ++ be 2 changes.toNat ++
          sc.body (sc.entered.take 100) (sc.left.take 100))

/-- READ returns the content of a record and changes one field, the fresh mark of a point (10 R166, 02 R36); LIST
returns a snapshot of at most 50 items that fits the payload and changes nothing (10 R167). The values of the marks in a body or an
item are log 42's. -/
def Obligations.ReadAndListReturn : Prop :=
  ∀ (tag : Byte) (a b c : Nat) (s : State),
    (RecordKind.ofCode a = none → exec (.read tag a b) s = .next (s.told ⟨0x06, tag, be 1 a ++ be 2 b⟩ .range [])) ∧
    (∀ k, RecordKind.ofCode a = some k → s.grid.body? false ⟨k, b⟩ = none →
      exec (.read tag a b) s = .next (s.told ⟨0x06, tag, be 1 a ++ be 2 b⟩ .unknown [])) ∧
    (∀ k body, RecordKind.ofCode a = some k → s.grid.body? false ⟨k, b⟩ = some body →
      ∃ t, exec (.read tag a b) s = .next t ∧
        t.grid = (if k = .point then s.grid.onPoint b (fun p => { p with fresh := false }) else s.grid) ∧
        t.link.urgent = s.link.urgent ∧ t.link.routine = s.link.routine ∧ t.pins = s.pins ∧
        s.Replies t 0x86 tag .done (be 1 a ++ be 2 b ++ body)) ∧
    (s.grid.engine.state.notLoaded = true →
      exec (.list tag a b c) s = .next (s.told ⟨0x07, tag, be 1 a ++ be 2 b ++ be 2 c⟩ .notLive [])) ∧
    (∀ code, s.grid.engine.state.notLoaded = false → s.grid.listing a b = .inl code →
      exec (.list tag a b c) s = .next (s.told ⟨0x07, tag, be 1 a ++ be 2 b ++ be 2 c⟩ code [])) ∧
    (∀ l, s.grid.engine.state.notLoaded = false → s.grid.listing a b = .inr l → ∃ items : List (List Byte),
      exec (.list tag a b c) s = .next (s.told ⟨0x07, tag, be 1 a ++ be 2 b ++ be 2 c⟩ .done
        (be 2 l.items.length ++ be 2 c ++ be 1 items.length ++ items.flatten)) ∧
      items = (l.items.drop c).take items.length ∧ items.length ≤ 50 ∧ items.flatten.length + 6 ≤ 240 ∧
      (items.length = 50 ∨ 240 < items.flatten.length + 6 + l.size ∨ l.items.length ≤ c + items.length))

/-- RESTART (09 R160, 10 R169, 02 R45, 05 R88, 06 R106, 07 R120, 08 R142): what each block keeps and clears. Feed inputs are
taken over, and in service they recompute the trees; that the stable count of a SHORT segment starts afresh there is the
model's choice (log 40), and the tree input of a feed without members is log 13's. -/
def Obligations.RestartKeepsNetwork : Prop :=
  ∀ (tag : Byte) (s : State), ∃ t, exec (.restart tag) s = .next t ∧
    t.grid.engine =
      { s.grid.engine with
        state := (match s.grid.engine.state with
          | .empty | .loading => .empty
          | .verifying => .verifying
          | .live | .maintenance | .adoptPending => .live),
        staging := none } ∧
    t.grid.valves = s.grid.valves ∧ t.grid.crews = s.grid.crews ∧ t.grid.lastCall = s.grid.lastCall ∧
    t.grid.arrival = s.grid.arrival ∧ t.grid.lastIso = s.grid.lastIso ∧
    t.grid.calls = s.grid.calls.filter (fun c => c.state != .closed) ∧
    t.grid.isos = s.grid.isos.filter (fun i => !i.released) ∧
    t.grid.points = s.grid.points.map (fun p =>
      { p with lock := .seeking, good := 0, miss := 0, fresh := false,
               deadline := s.grid.engine.run + BitVec.ofNat 32 p.st.interval }) ∧
    t.grid.feeds.map (fun f => (f.num, f.st, f.presence, f.input)) = s.grid.feeds.map (fun f => (f.num, f.st, f.presence,
      match s.grid.point? f.st.point with
      | some p => p.lossInput
      | none => f.input)) ∧
    (∀ f ∈ t.grid.feeds, f.low = 0 ∧ f.high = 0 ∧ f.stale = true) ∧
    (s.grid.NetworkSound → ∀ f ∈ t.grid.feeds, ∀ q, s.grid.feed? f.num = some q →
      (∀ i, t.grid.engine.state.inService = true → f.presence = .present → f.input = some i →
        t.grid.Estimated f.num (some i.value) ∧ f.treeInput = some i.value) ∧
      (t.grid.engine.state.inService = false ∨ f.presence ≠ .present ∨ f.input = none → f.treeInput = q.treeInput)) ∧
    t.grid.segs.map (fun r => (r.num, r.st, r.supply, r.meshed, r.unrelit, r.summary,
        r.outage.map fun p => { p with stable := 0, target := none })) =
      s.grid.segs.map (fun r => (r.num, r.st, r.supply, r.meshed, r.unrelit, r.summary,
        r.outage.map fun p => { p with stable := 0, target := none })) ∧
    (s.grid.NetworkSound → ∀ r ∈ t.grid.segs, ∀ q, s.grid.seg? r.num = some q →
      r.escapes = q.escapes ∧ r.noSupply = q.noSupply ∧
      (r.outage = q.outage ∨ r.band = some .short ∧
        r.outage = q.outage.map fun p => { p with stable := 0, target := some s.grid.engine.consts.stable })) ∧
    (∀ r ∈ t.grid.segs, ∀ x : Condition, r.conds.getLsbD x.bit = t.grid.holds r x) ∧
    t.grid.screens.map (fun sc => { sc with matched := [] }) =
      s.grid.screens.map (fun sc => { sc with matched := [], entered := [], left := [] }) ∧
    (∀ sc ∈ s.grid.screens, sc.enabled = true → s.grid.NetworkSound →
      (∀ r ∈ s.grid.segs, r.num ∈ sc.matched ↔ sc.matches r = true) →
      ∃ sc' ∈ t.grid.screens, sc'.num = sc.num ∧ ∀ r ∈ t.grid.segs, r.num ∈ sc'.matched ↔ sc.matches r = true) ∧
    t.link.rx = .hunting ∧ t.link.holding = [] ∧ t.link.urgent = [] ∧ t.link.routine = [] ∧
    t.pins = { s.pins with note := false, alert := false } ∧
    s.Replies t 0x84 tag .done (be 1 t.grid.engine.state.code)

/-- A posted change joins the record's change set, and places, promotes or leaves the record's entry (10 R164). -/
def Obligations.PostingPlacesEntry : Prop :=
  ∀ (k : Change) (n : Nat) (c : Urgency) (s : State), s.link.NoticesSound →
    let r : Ref := ⟨k.record, n⟩
    let t := s.act (.post k n c)
    changeSet r t.link = changeSet r s.link ||| k.mask ∧
    (∀ r', r' ≠ r → changeSet r' t.link = changeSet r' s.link) ∧
    (noticed r s.link.urgent = false → noticed r s.link.routine = false →
      t.link.urgent = (if c = .urgent then s.link.urgent ++ [⟨r, k.mask⟩] else s.link.urgent) ∧
      t.link.routine = (if c = .urgent then s.link.routine else s.link.routine ++ [⟨r, k.mask⟩])) ∧
    (noticed r s.link.routine = true → c = .urgent →
      t.link.urgent = s.link.urgent ++ [⟨r, changeSet r s.link ||| k.mask⟩] ∧
      t.link.routine = s.link.routine.filter (fun e => e.ref != r)) ∧
    (noticed r s.link.urgent = true ∨ noticed r s.link.routine = true ∧ c = .routine →
      t.link.urgent.map (fun e => e.ref) = s.link.urgent.map (fun e => e.ref) ∧
      t.link.routine.map (fun e => e.ref) = s.link.routine.map (fun e => e.ref)) ∧
    t.pins.note = true ∧ t.pins.alert = !t.link.urgent.isEmpty ∧ t.grid = s.grid

/-! ### The engine's requests -/

/-- AMEND writes the fields its mask names: constants at once, a segment's fields at once, a point's as pending
parameters; a value out of range changes nothing, and equal values answer NO-CHANGE (09 R157, 02 R28). A point's
NO-CHANGE is judged on the values that would apply (log 17). -/
def Obligations.AmendTakesEffect : Prop :=
  ∀ (tag : Byte) (n mask : Nat) (values : List Byte) (s : State),
    (∀ a b c d e f g h i : Option Nat, s.grid.engine.state = .verifying ∨ s.grid.AtWork →
      amendValues [4, 4, 4, 4, 1, 1, 4, 1, 1] mask values = some [a, b, c, d, e, f, g, h, i] →
      let k := s.grid.engine.consts
      let k' : Constants := ⟨a.getD k.attend1, b.getD k.attend2, c.getD k.attend3, d.getD k.attend4, e.getD k.cluster,
        f.getD k.doubt, g.getD k.verify, h.getD k.stable, i.getD k.anomaly⟩
      (k'.ok = false → exec (.amend tag 8 0 mask values) s =
        .next (s.told ⟨0x08, tag, be 1 8 ++ be 2 0 ++ be 2 mask ++ values⟩ .range [])) ∧
      (k'.ok = true → k' = k → exec (.amend tag 8 0 mask values) s =
        .next (s.told ⟨0x08, tag, be 1 8 ++ be 2 0 ++ be 2 mask ++ values⟩ .noChange [])) ∧
      (k'.ok = true → k' ≠ k → ∃ t, exec (.amend tag 8 0 mask values) s = .next t ∧
        t.grid.Follows { s.grid with engine := { s.grid.engine with consts := k' } } ∧
        s.Replies t 0x88 tag .done [] ∧ t.Reports .engineConstants 0)) ∧
    (∀ (r : Segment) (a b c d e f : Option Nat), s.grid.AtWork → s.grid.seg? n = some r →
      amendValues [2, 4, 4, 4, 2, 4] mask values = some [a, b, c, d, e, f] →
      let st : SegStatic := { r.st with
        unitLoad := a.getD r.st.unitLoad, resistance := b.getD r.st.resistance, minimum := c.getD r.st.minimum,
        warn := d.getD r.st.warn, hysteresis := e.getD r.st.hysteresis, deviation := f.getD r.st.deviation }
      st.tunableOk = true → st ≠ r.st → ∃ t, exec (.amend tag 0 n mask values) s = .next t ∧
        t.grid.Follows (s.grid.onSeg n fun x => { x with st := st }) ∧
        s.Replies t 0x88 tag .done [] ∧ t.Reports .segParams n) ∧
    (∀ (p : Point) (vs : List (Option Nat)) (new : Pending), s.grid.engine.state = .verifying ∨ s.grid.AtWork →
      s.grid.point? n = some p → amendValues [4, 4, 1, 1, 1, 2, 1, 4, 4, 4, 4] mask values = some vs →
      pendingOf vs = some new → ((new.over p.pend).apply p.st).ok = true →
      (new.over p.pend).apply p.st ≠ p.pend.apply p.st →
      ∃ t, exec (.amend tag 2 n mask values) s = .next t ∧
        t.grid = s.grid.onPoint n (fun x => { x with pend := new.over p.pend }) ∧
        s.Replies t 0x88 tag .done [] ∧ t.Reports .pointPending n)

/-- WEATHER stores the clamped factor and, in service, leaves every tree of a PRESENT feed with an input in the estimate of
03 R54 to R57, from that input, which becomes the tree input (09 R159, 03 R47, R51); without an input the tree is held as it
was (03 R51). The tree input of a feed without members is log 13's. -/
def Obligations.WeatherRecomputesTrees : Prop :=
  ∀ (tag : Byte) (factor : Nat) (s : State), s.grid.engine.state.notLoaded = false →
    (min 2000 factor = s.grid.engine.weather →
      exec (.weather tag factor) s = .next (s.told ⟨0x09, tag, be 2 factor⟩ .noChange (be 2 (min 2000 factor)))) ∧
    (min 2000 factor ≠ s.grid.engine.weather → ∃ t, exec (.weather tag factor) s = .next t ∧
      t.grid.Follows { s.grid with engine := { s.grid.engine with weather := min 2000 factor } } ∧
      s.Replies t 0x89 tag .done (be 2 (min 2000 factor)) ∧ t.Reports .engineWeather 0 ∧
      (s.grid.NetworkSound → s.grid.engine.state.inService = true →
        ∀ f ∈ t.grid.feeds, ∀ q, s.grid.feed? f.num = some q →
          (∀ i, f.presence = .present → f.input = some i →
            t.grid.Estimated f.num (some i.value) ∧ f.treeInput = some i.value) ∧
          (f.presence ≠ .present ∨ f.input = none → f.treeInput = q.treeInput ∧
            ∀ r ∈ t.grid.segs, r.supply.feed? = some f.num → (s.grid.seg? r.num).map (fun x => x.est) = some r.est)))

/-- LOAD-CURSOR places the cursor, discards unfinished parts and keeps the direction; from EMPTY it begins LOADING with
an empty copy; an index outside the table is refused (09 R149). -/
def Obligations.LoadCursorPlaces : Prop :=
  ∀ (tag : Byte) (code index : Nat) (s : State),
    (∀ table, TableId.ofCode code = some table → index < table.size → s.grid.engine.state = .empty →
      ∃ t, exec (.loadCursor tag code index) s = .next t ∧
        t.grid = { s.grid with engine := { s.grid.engine with
          state := .loading, staging := some ⟨⟨[], [], [], []⟩, ⟨table, index, 0, [], .write⟩⟩ } } ∧
        s.Replies t 0x90 tag .done (be 1 0)) ∧
    (∀ table stg, TableId.ofCode code = some table → index < table.size →
      s.grid.engine.state = .loading ∨ s.grid.engine.state = .maintenance → s.grid.engine.staging = some stg →
      ∃ t, exec (.loadCursor tag code index) s = .next t ∧
        t.grid = { s.grid with engine := { s.grid.engine with
          staging := some ⟨stg.topo, ⟨table, index, 0, [], stg.cursor.dir⟩⟩ } } ∧
        s.Replies t 0x90 tag .done (be 1 stg.cursor.counter)) ∧
    ((∀ table, TableId.ofCode code = some table → table.size ≤ index) →
      s.grid.engine.state = .empty ∨ s.grid.engine.state = .loading ∨ s.grid.engine.state = .maintenance →
      exec (.loadCursor tag code index) s = .next (s.told ⟨0x10, tag, be 1 code ++ be 2 index⟩ .range []))

/-- LOAD-PART holds a part or, at the last, replaces the staged record; the absent mark deletes it; a part that interrupts
a read is refused SEQUENCE, one past the table's end RANGE, a bad one RANGE, and in MAINTENANCE one that touches an engaged
record ENGAGED (09 R150). LOAD-READ returns the next part, holds it and moves the cursor, and changes no staged record
(09 R149, R151). That the parts are numbered from 1 in the reply is log 15's reading, that its cursor is table, index,
counter and direction log 38's, that its flag is 1 for a complete record log 42's, and the first two bytes of the reply to
the absent mark are free (log 16). -/
def Obligations.LoadPartsMoveCursor : Prop :=
  ∀ (tag : Byte) (content : List Byte) (topo : Topology) (c : Cursor) (s : State),
    s.grid.engine.state = .loading ∨ s.grid.engine.state = .maintenance → s.grid.engine.staging = some ⟨topo, c⟩ →
    let place (x : Cursor) : List Byte := be 1 x.table.code ++ be 2 x.index ++ be 1 x.counter ++ be 1 x.dir.code
    let next (dir : Direction) : Cursor := ⟨c.table, c.index + 1, 0, [], dir⟩
    let read := contentOf c.table c.counter content
    let engaged (k : RecordKind) :=
      exec (.loadPart tag content) s =
        .next (s.told ⟨0x11, tag, content⟩ .engaged (be 1 k.code ++ be 2 c.index ++ be 1 4))
    (c.counter ≠ 0 → c.dir = .read →
      exec (.loadPart tag content) s = .next (s.told ⟨0x11, tag, content⟩ .sequence [])) ∧
    (c.counter ≠ 0 → c.dir = .write → exec (.loadRead tag) s = .next (s.told ⟨0x12, tag, []⟩ .sequence [])) ∧
    (c.counter = 0 → c.table.size ≤ c.index →
      exec (.loadPart tag content) s = .next (s.told ⟨0x11, tag, content⟩ .range []) ∧
        exec (.loadRead tag) s = .next (s.told ⟨0x12, tag, []⟩ .range [])) ∧
    (c.index < c.table.size → c.counter = 0 ∨ c.dir = .write →
      (read = .bad → exec (.loadPart tag content) s = .next (s.told ⟨0x11, tag, content⟩ .range [])) ∧
      (s.grid.engine.state = .maintenance →
        (∀ r, c.table = .segment → read = .absent → s.grid.seg? c.index = some r → s.grid.segEngaged r = true →
          engaged .segment) ∧
        (∀ v, c.table = .valve → read = .absent → s.grid.valve? c.index = some v →
          v.isos ≠ [] ∨ v.hold ≠ .none ∨ v.order ≠ none ∨ v.state ≠ v.st.normal.rest → engaged .valve) ∧
        (∀ v kind a b, c.table = .valve → read = .part (.valve1 kind a b) → s.grid.valve? c.index = some v →
          v.isos ≠ [] ∨ v.hold ≠ .none ∨ v.order ≠ none →
          v.st.kind ≠ kind ∨ v.st.sideA ≠ a ∨ v.st.sideB ≠ b → engaged .valve)) ∧
      (∀ p, read = .part p → s.grid.engagedPart c read = none →
        let c' := if c.counter + 1 = c.table.parts then next .write
          else ⟨c.table, c.index, c.counter + 1, c.parts ++ [p], .write⟩
        ∃ t, exec (.loadPart tag content) s = .next t ∧
          t.grid = { s.grid with engine := { s.grid.engine with staging := (
            some ⟨if c.counter + 1 = c.table.parts then topo.put c.index (c.parts ++ [p]) else topo, c'⟩) } } ∧
          s.Replies t 0x91 tag .done
            (be 1 (c.counter + 1) ++ be 1 (if c.counter + 1 = c.table.parts then 1 else 0) ++ place c')) ∧
      (read = .absent → s.grid.engagedPart c read = none →
        ∃ t, exec (.loadPart tag content) s = .next t ∧
          t.grid = { s.grid with engine := { s.grid.engine with staging := (
            some ⟨topo.delete c.table c.index, next .write⟩) } } ∧
          ∃ a b, s.Replies t 0x91 tag .done (a :: b :: place (next .write)))) ∧
    (c.index < c.table.size → c.counter = 0 ∨ c.dir = .read →
      (topo.partsAt c.table c.index = none → ∃ t, exec (.loadRead tag) s = .next t ∧
        t.grid = { s.grid with engine := { s.grid.engine with staging := some ⟨topo, next .read⟩ } } ∧
        s.Replies t 0x92 tag .done [1]) ∧
      (∀ ps p, topo.partsAt c.table c.index = some ps → ps[c.counter]? = some p → ∃ t,
        exec (.loadRead tag) s = .next t ∧
        t.grid = { s.grid with engine := { s.grid.engine with staging := (
          some ⟨topo, if c.counter + 1 < ps.length then
              ⟨c.table, c.index, c.counter + 1, ps.take (c.counter + 1), .read⟩
            else next .read⟩) } } ∧
        s.Replies t 0x92 tag .done p.bytes))

/-- A part in its ranges that LOAD-READ returns is the part LOAD-PART reads, for every part of every table (11 Table 11-6). A
full set of parts makes the staged record of its number, field by field, which is read back as the same parts (09 R150,
R151); a deletion leaves none; each leaves every other staged record as it was, and the copy in ascending order. -/
def Obligations.LoadPartRoundTrip : Prop :=
  (∀ p : Part, p.ok = true → contentOf p.place.1 p.place.2 p.bytes = .part p) ∧
  (∀ (t : Topology) (table : TableId) (n : Nat) (ps : List Part), ps.length = table.parts →
    (∀ (k : Nat) (p : Part), ps[k]? = some p → p.place = (table, k)) →
    (t.put n ps).partsAt table n = some ps ∧ (t.delete table n).partsAt table n = none ∧
    (∀ other m, (other, m) ≠ (table, n) → (t.put n ps).partsAt other m = t.partsAt other m ∧
      (t.delete table n).partsAt other m = t.partsAt other m) ∧
    (t.Ascending → (t.put n ps).Ascending ∧ (t.delete table n).Ascending)) ∧
  ∀ (t : Topology) (n : Nat),
    (∀ (home customers load r minimum warn h d : Nat) (ext : Option Nat),
      (t.put n [.seg1 home customers load, .seg2 r, .seg3 minimum warn h d ext]).segs.lookup n = some
        { homeFeed := home, customers := customers, unitLoad := load, resistance := r, minimum := minimum, warn := warn,
          hysteresis := h, deviation := d, extremity := ext }) ∧
    (∀ (kind : ValveKind) (a b timeout : Nat) (fb : List Nat),
      (t.put n [.valve1 kind a b, .valve2 timeout fb]).valves.lookup n = some
        { kind := kind, sideA := a, sideB := b, timeout := timeout, fallbacks := fb }) ∧
    (∀ (kind : PointKind) (loss : LossBehaviour) (low span lock lose shift interval sub high lo h : Nat),
      (t.put n [.point1 kind low span, .point2 lock lose shift interval loss sub high lo h]).points.lookup n = some
        { kind := kind, scaleLow := low, span := span, lockCount := lock, lossCount := lose, shift := shift,
          interval := interval, loss := loss, substitute := sub, high := high, low := lo, hysteresis := h }) ∧
    ∀ point fail restore count : Nat,
      (t.put n [.feed1 point fail restore count]).feeds.lookup n = some
        { point := point, failBelow := fail, restoreAt := restore, failCount := count }

/-- COMMIT builds the live tables of a valid copy, every record at its commit values, makes the crews, keeps the screens'
definitions and enters VERIFYING, or LIVE when nothing is left to verify; an invalid copy changes nothing (09 R152, 01 R3,
02 Tables 2-2 and 2-5). That no segment has a condition then takes constants in their ranges, as every step keeps them
(`State.CallsSound`). A copy is invalid for the first record, in the order of 01 R7 to R11,
that fails a row of 01 Table 1-5, with that row's reason, and valid when no record fails any. -/
def Obligations.CommitBuildsTables : Prop :=
  ∀ (tag : Byte) (topo : Topology) (c : Cursor) (s : State), s.grid.engine.state = .loading →
    s.grid.engine.staging = some ⟨topo, c⟩ →
    (topo.Ascending → (topo.invalid = none ↔ ∀ r x, ¬ topo.Fails r x) ∧
      ∀ e, topo.invalid = some e ↔ topo.Fails e.ref e.reason ∧
        ∀ r x, topo.Fails r x → ¬ sooner (checkTurn r x) (checkTurn e.ref e.reason)) ∧
    (c.counter ≠ 0 → exec (.commit tag) s = .next (s.told ⟨0x13, tag, []⟩ .sequence [])) ∧
    (∀ e, c.counter = 0 → topo.invalid = some e →
      exec (.commit tag) s = .next (s.told ⟨0x13, tag, []⟩ .invalid (e.ref.bytes ++ be 1 e.reason.code))) ∧
    (c.counter = 0 → topo.invalid = none → ∃ t, exec (.commit tag) s = .next t ∧
      t.grid.engine = { s.grid.engine with
        staging := none, state := if topo.valves = [] ∧ topo.feeds = [] then .live else .verifying } ∧
      t.grid.topology = topo ∧
      t.grid.valves = topo.valves.map (fun r =>
        { num := r.1, st := r.2, state := (match r.2.kind with | .tie => .closed | .line | .outlet => .opened),
          known := (match r.2.kind with | .tie => .closed | .line | .outlet => .opened), isos := [], hold := .none,
          order := none, counter := 0, reopen := false, verified := false, verifyDeadline := none, unverified := false,
          uncommanded := false, fault := none, moving := false }) ∧
      t.grid.points = topo.points.map (fun r =>
        { num := r.1, st := r.2, lock := .seeking, good := 0, miss := 0, latest := none, smoothed := none,
          fresh := false, alarm := .normal, deadline := s.grid.engine.run + BitVec.ofNat 32 r.2.interval, pend := {},
          lastSample := none }) ∧
      t.grid.crews = (List.range 48).map (fun n => ⟨n, none, .offShift, none⟩) ∧
      (topo.valves ≠ [] ∨ topo.feeds ≠ [] → t.grid.segs.map (fun r => { r with escapes := 0, noSupply := 0, conds := 0 }) =
        topo.segs.map (fun r =>
          { num := r.1, st := r.2, supply := .unknown, meshed := false, est := ⟨0, 0, 0, none, false, none, none⟩,
            outage := none, unrelit := 0, summary := none, escapes := 0, noSupply := 0, conds := 0, unverified := 0 })) ∧
      (topo.valves ≠ [] ∨ topo.feeds ≠ [] → s.grid.engine.consts.ok = true → s.grid.calls = [] → s.grid.isos = [] →
        ∀ r ∈ t.grid.segs, r.escapes = 0 ∧ r.noSupply = 0 ∧ r.conds = 0) ∧
      t.grid.feeds = topo.feeds.map (fun r =>
        { num := r.1, st := r.2, presence := .unknown, low := 0, high := 0,
          input := (topo.points.lookup r.2.point).bind fun p => match p.loss with
            | .substitute => some ⟨p.substitute, .substitute⟩
            | .hold | .drop => none,
          stale := true, treeInput := none }) ∧
      t.grid.screens.map (fun sc => { sc with matched := [], entered := [], left := [] }) =
        s.grid.screens.map (fun sc => { sc with matched := [], entered := [], left := [] }) ∧
      s.Replies t 0x93 tag .done (be 2 topo.segs.length ++ be 2 topo.valves.length ++ be 2 topo.points.length ++
        be 1 topo.feeds.length))

/-- FORCE-LIVE enters LIVE, puts the valves without a verified mark in their normal position, and runs the first
resolution: every segment is FED or UNFED, an UNFED one opens an outage with cause INITIAL, and every tree is recomputed
from its feed's input or, without one, its tree input (09 R153, 04 R87, 01 R20, 03 R52, 06 R109). -/
def Obligations.ForceLiveResolves : Prop :=
  ∀ (tag : Byte) (s : State), s.grid.engine.state = .verifying → ∃ t, exec (.forceLive tag) s = .next t ∧
    t.grid.engine = { s.grid.engine with state := .live } ∧
    t.grid.valves = s.grid.valves.map (fun v =>
      if v.verified then v
      else { v with state := (match v.st.kind with | .tie => .closed | .line | .outlet => .opened),
                    known := (match v.st.kind with | .tie => .closed | .line | .outlet => .opened),
                    fault := none, verifyDeadline := none, unverified := true }) ∧
    t.grid.points = s.grid.points ∧ t.grid.isos = s.grid.isos ∧
    t.grid.segs.map (fun r => (r.num, r.st, r.unrelit)) = s.grid.segs.map (fun r => (r.num, r.st, r.unrelit)) ∧
    (∀ r ∈ t.grid.segs, r.supply = supplyIn t.grid.reachedSegs r.num) ∧
    (∀ r ∈ s.grid.segs, (s.grid.segs.map fun x => x.num).Nodup → r.supply = .unknown → r.outage = none →
      ∀ q ∈ t.grid.segs, q.num = r.num → q.supply = .unfed →
        q.outage = some ⟨.initial, .off, r.st.customers - r.unrelit, 0, 0, 0, none, 0, s.grid.net,
          r.st.customers - r.unrelit⟩) ∧
    (s.grid.NetworkSound → (∀ r ∈ s.grid.segs, r.supply = .unknown) → ∀ f ∈ t.grid.feeds, ∀ q,
      s.grid.feed? f.num = some q → f = { q with treeInput := f.treeInput } ∧
        (∀ i, f.input = some i → (∃ r ∈ t.grid.segs, r.supply.feed? = some f.num) →
          t.grid.Estimated f.num (some i.value) ∧ f.treeInput = some i.value) ∧
        (f.input = none ∨ (∀ r ∈ t.grid.segs, r.supply.feed? ≠ some f.num) →
          t.grid.Estimated f.num q.treeInput ∧ f.treeInput = q.treeInput)) ∧
    s.Replies t 0x94 tag .done (be 2 (s.grid.valves.filter fun v => !v.verified).length)

/-- ENTER-MAINTENANCE copies the static part of every live record; ABANDON discards the copy and the last conflict; each
is refused in every other engine state (09 R148, R154). -/
def Obligations.MaintenanceEntersAndAbandons : Prop :=
  ∀ (tag : Byte) (s : State),
    (s.grid.engine.state = .live → ∃ t, exec (.enterMaintenance tag) s = .next t ∧
      t.grid = { s.grid with engine := { s.grid.engine with
        state := .maintenance,
        staging := some ⟨⟨s.grid.segs.map fun r => (r.num, r.st), s.grid.valves.map fun r => (r.num, r.st),
          s.grid.points.map fun r => (r.num, r.st), s.grid.feeds.map fun r => (r.num, r.st)⟩,
          ⟨.segment, 0, 0, [], .read⟩⟩ } } ∧
      s.Replies t 0x95 tag .done [] ∧ t.Reports .engineState 0) ∧
    (s.grid.engine.state ≠ .live →
      exec (.enterMaintenance tag) s = .next (s.told ⟨0x15, tag, []⟩ .wrongState [])) ∧
    (s.grid.engine.state = .maintenance ∨ s.grid.engine.state = .adoptPending →
      ∃ t, exec (.abandon tag) s = .next t ∧
        t.grid = { s.grid with engine := { s.grid.engine with state := .live, staging := none, conflict := none } } ∧
        s.Replies t 0x97 tag .done [] ∧ t.Reports .engineState 0) ∧
    (s.grid.engine.state ≠ .maintenance → s.grid.engine.state ≠ .adoptPending →
      exec (.abandon tag) s = .next (s.told ⟨0x17, tag, []⟩ .wrongState []))

/-- ADOPT checks sequence, topology and conflicts in this order; with no order outstanding it replaces the static part
of every table, keeps, starts and drops records as 09 R156 says, gives each unreleased isolation its new BOUNDARY entries
(05 R104) and enters LIVE, with one it enters ADOPT-PENDING, where it is BUSY (09 R148, R155). The conflict is
the first record, in the order of 09 Table 9-4 and of its numbers, that a row of that table names. -/
def Obligations.AdoptReplacesOrWaits : Prop :=
  ∀ (tag : Byte) (topo : Topology) (c : Cursor) (s : State),
    (s.grid.engine.state = .adoptPending → exec (.adopt tag) s = .next (s.told ⟨0x16, tag, []⟩ .busy [])) ∧
    (s.grid.NetworkSound → topo.Ascending → (s.grid.conflict topo = none ↔ ∀ r x, ¬ s.grid.Conflicts topo r x) ∧
      ∀ e, s.grid.conflict topo = some e ↔ s.grid.Conflicts topo e.ref e.reason ∧
        ∀ r x, s.grid.Conflicts topo r x → ¬ sooner (x.code, r.num, 0) (e.reason.code, e.ref.num, 0)) ∧
    (s.grid.engine.state = .maintenance → s.grid.engine.staging = some ⟨topo, c⟩ →
    (c.counter ≠ 0 → exec (.adopt tag) s = .next (s.told ⟨0x16, tag, []⟩ .sequence [])) ∧
    (∀ e, c.counter = 0 → topo.invalid = some e →
      exec (.adopt tag) s = .next (s.told ⟨0x16, tag, []⟩ .invalid (e.ref.bytes ++ be 1 e.reason.code))) ∧
    (∀ e, c.counter = 0 → topo.invalid = none → s.grid.conflict topo = some e →
      exec (.adopt tag) s = .next (s.told ⟨0x16, tag, []⟩ .engaged (e.ref.bytes ++ be 1 e.reason.code))) ∧
    (c.counter = 0 → topo.invalid = none → s.grid.conflict topo = none →
      (s.grid.ordered ≠ [] → ∃ t, exec (.adopt tag) s = .next t ∧
        t.grid = { s.grid with engine := { s.grid.engine with state := .adoptPending } } ∧
        s.Replies t 0x96 tag .done (be 1 5 ++ be 2 s.grid.ordered.length)) ∧
      (s.grid.ordered = [] → ∃ t, exec (.adopt tag) s = .next t ∧
        t.grid.engine = { s.grid.engine with state := .live, staging := none, conflict := none } ∧
        t.grid.topology = topo ∧ (∀ p ∈ t.grid.points, p.pend = {}) ∧
        (topo.Ascending → t.grid.AdoptedFrom s.grid topo) ∧
        (∀ r ∈ t.grid.segs, r.supply = .unfed ∨ r.supply.isFed = true) ∧
        t.grid.isos.map (fun i => (i.num, i.target, i.started, i.released)) =
          s.grid.isos.map (fun i => (i.num, i.target, i.started, i.released)) ∧
        t.grid.calls.map (fun r => (r.num, r.seg, r.base)) = s.grid.calls.map (fun r => (r.num, r.seg, r.base)) ∧
        s.Replies t 0x96 tag .done (be 1 3))))

/-! ### Telemetry -/

/-- A taken SAMPLE applies the pending parameters; a valid one is scaled, advances the lock machine and sets or moves
the smoothed value; an invalid one counts a miss (02 R27 to R32). The alarm is evaluated with the smoothed value. -/
def Obligations.SampleAdvancesPoint : Prop :=
  ∀ (tag : Byte) (n raw q : Nat) (p : Point) (s : State), s.grid.engine.state.notLoaded = false →
    s.grid.point? n = some p →
    let st := p.pend.apply p.st
    let v := min 999999 (st.scaleLow + (raw * st.span + 2047) / 4095)
    let base : Point := { p with
      st := st, pend := {}, deadline := s.grid.engine.run + BitVec.ofNat 32 st.interval, lastSample := some s.grid.net }
    let valid : Point := { base with latest := some v, fresh := true, miss := 0 }
    ∃ t p', exec (.sample tag n raw q) s = .next t ∧ t.grid.point? n = some p' ∧
      (∀ m, m ≠ n → t.grid.point? m = s.grid.point? m) ∧
      t.grid.valves = s.grid.valves ∧ t.grid.isos = s.grid.isos ∧
      (st.kind ≠ .feed → s.grid.engine.state.inService = true → t.grid.Follows (s.grid.onPoint n fun _ => p')) ∧
      s.Replies t 0xA0 tag .done
        (be 1 p'.lock.code ++ be 1 p'.miss ++ pressBytes p'.latest ++ pressBytes p'.smoothed) ∧
      (q = 0 → raw ≤ 4095 →
        (p.lock = .seeking → p.good + 1 < st.lockCount → p' = { valid with good := p.good + 1 }) ∧
        (p.lock = .lost → 1 < st.lockCount → p' = { valid with lock := .seeking, good := 1 }) ∧
        (p.lock = .seeking ∧ st.lockCount ≤ p.good + 1 ∨ p.lock = .lost ∧ st.lockCount ≤ 1 →
          p' = { valid with lock := .locked, good := 0, smoothed := some v, alarm := alarmFor st v p.alarm }) ∧
        (∀ old, p.lock = .locked → p.smoothed = some old →
          let new := if old ≤ v then old + (2 * (v - old) + 2 ^ st.shift) / (2 * 2 ^ st.shift)
            else old - (2 * (old - v) + 2 ^ st.shift) / (2 * 2 ^ st.shift)
          p' = { valid with smoothed := some new, alarm := alarmFor st new p.alarm })) ∧
      (q ≠ 0 ∨ 4096 ≤ raw →
        p' = { base with
          miss := min 15 (p.miss + 1), good := 0,
          lock := if p.lock = .locked ∧ st.lossCount ≤ min 15 (p.miss + 1) then .lost else p.lock })

/-- The expiry of a point's interval timer counts a miss, clears the good run, may lose the lock, and restarts the timer;
it applies no pending parameters (02 R33). A timer that is not due has no expiry (log 6). -/
def Obligations.PointIntervalExpires : Prop :=
  ∀ (n : Nat) (p : Point) (s : State), s.grid.point? n = some p →
    (reached s.grid.engine.run p.deadline = false → exec (.pointIntervalExpiry n) s = .next s) ∧
    (reached s.grid.engine.run p.deadline = true → ∃ t p', exec (.pointIntervalExpiry n) s = .next t ∧
      p' = { p with
        miss := min 15 (p.miss + 1), good := 0,
        lock := (if p.lock = .locked ∧ p.st.lossCount ≤ min 15 (p.miss + 1) then .lost else p.lock),
        deadline := s.grid.engine.run + BitVec.ofNat 32 p.st.interval } ∧
      t.grid.point? n = some p' ∧ (∀ m, m ≠ n → t.grid.point? m = s.grid.point? m) ∧
      t.grid.valves = s.grid.valves ∧ t.grid.isos = s.grid.isos ∧
      (p.st.kind ≠ .feed → s.grid.engine.state.inService = true → t.grid.Follows (s.grid.onPoint n fun _ => p')) ∧
      (p.lock = .locked → p'.lock = .lost → t.Reports .pointLock n ∧
        (p.st.kind = .feed → (∃ f ∈ s.grid.feeds, f.st.point = n) → t.pins.alert = true)))

/-- A feed takes the smoothed value of its LOCKED point into its runs, its presence and its input, takes its input over when
the point is lost, at a sample or at the expiry of its interval, and derives it again when the parameters of a point that is
not LOCKED change (02 R33, R34, R37, R39 to R43). In service the input reaches the feed's tree when the feed is PRESENT
(03 R49, R51; without members, log 13). -/
def Obligations.FeedFollowsPoint : Prop :=
  ∀ (n : Nat) (p : Point) (f : Feed) (s : State),
    s.grid.engine.state.notLoaded = false → s.grid.NetworkSound → s.grid.point? n = some p → p.st.kind = .feed →
    f ∈ s.grid.feeds → f.st.point = n →
    let others (t : State) : Prop := ∀ m, m ≠ f.num →
      (t.grid.feed? m).map (fun r => { r with treeInput := none }) =
        (s.grid.feed? m).map fun r => { r with treeInput := none }
    let follows (t : State) (p' : Point) (f' : Feed) : Prop :=
      s.grid.engine.state.inService = true → t.grid.Follows ((s.grid.onPoint n fun _ => p').onFeed f.num fun _ => f')
    let reaches (t : State) (f' : Feed) : Prop := s.grid.engine.state.inService = true →
      (∀ i, f'.presence = .present → f'.input = some i →
        t.grid.Estimated f.num (some i.value) ∧ f'.treeInput = some i.value) ∧
      (f'.presence ≠ .present ∨ f'.input = none → f'.treeInput = f.treeInput)
    let takenOver (t : State) (p' : Point) (f' : Feed) : Prop :=
      f' = { f with low := 0, high := 0, stale := true, input := p'.lossInput, treeInput := f'.treeInput } ∧
        reaches t f' ∧ (f.stale = false → t.Reports .feedStale f.num)
    (∀ (tag : Byte) (raw q : Nat), ∃ t p' f', exec (.sample tag n raw q) s = .next t ∧
      t.grid.point? n = some p' ∧ t.grid.feed? f.num = some f' ∧ others t ∧ follows t p' f' ∧
      (∀ v, q = 0 → raw ≤ 4095 → p'.lock = .locked → p'.smoothed = some v →
        f' = { f with
          low := (if v < f.st.failBelow then min 15 (f.low + 1) else 0)
          high := (if v < f.st.failBelow then 0 else if f.st.restoreAt ≤ v then min 15 (f.high + 1) else 0)
          input := some ⟨v, .live⟩, stale := false, treeInput := f'.treeInput
          presence := (match f.presence with
            | .unknown =>
              if f.st.failBelow ≤ v then .present else if f.st.failCount ≤ f'.low then .failed else .unknown
            | .present => if f.st.failCount ≤ f'.low then .failed else .present
            | .failed => if f.st.failCount ≤ f'.high then .present else .failed) } ∧
        reaches t f' ∧ (f.stale = true → t.Reports .feedStale f.num) ∧
        (f'.presence ≠ f.presence → t.Reports .feedPresence f.num) ∧
        (f'.presence = .failed → f.presence ≠ .failed → t.pins.alert = true)) ∧
      (p.lock = .locked → p'.lock = .lost → takenOver t p' f') ∧
      (p.lock = .locked → p'.lock = .locked → q ≠ 0 ∨ 4096 ≤ raw → f' = f) ∧
      (p.lock ≠ .locked → p'.lock ≠ .locked →
        f' = { f with input := (if p.pend = {} then f.input else p'.lossInput), treeInput := f'.treeInput } ∧
          (f'.input = f.input → f' = f) ∧ (f'.input ≠ f.input → reaches t f'))) ∧
    (reached s.grid.engine.run p.deadline = true → ∃ t p' f', exec (.pointIntervalExpiry n) s = .next t ∧
      t.grid.point? n = some p' ∧ t.grid.feed? f.num = some f' ∧ others t ∧ follows t p' f' ∧
      (p.lock = .locked → p'.lock = .lost → takenOver t p' f') ∧
      (p.lock ≠ .locked ∨ p'.lock = .locked → f' = f))

/-- The alarm state after a smoothed value (02 R35); the anomaly flag and runs after a comparison (03 R61); and a sample
of a LOCKED extremity point makes one for a FED segment that is not STALE and has an end pressure, with the segment's
limit and the count in force, and none for a segment that is STALE, not FED or without an end pressure (02 R37, 03
R60). -/
def Obligations.AlarmAndAnomalyFollowValues : Prop :=
  (∀ (st : PointStatic) (v : Nat) (a : AlarmState),
    (st.high < v → alarmFor st v a = .high) ∧
    (v ≤ st.high → v < st.low → alarmFor st v a = .low) ∧
    (v ≤ st.high → st.low ≤ v → alarmFor st v a = (match a with
      | .high => if v + st.hysteresis ≤ st.high then .normal else .high
      | .low => if st.low + st.hysteresis ≤ v then .normal else .low
      | .normal => .normal))) ∧
  (∀ (count limit press value : Nat) (e : Estimate),
    let next (o : Option Run) : Run :=
      match o with
      | none => ⟨1, count⟩
      | some r => ⟨min 15 (r.count + 1), r.target⟩
    (press ≤ value + limit ∧ value ≤ press + limit → e.compare count limit press value =
      { e with outside := none, inside := some (next e.inside),
               anomaly := if (next e.inside).target ≤ (next e.inside).count then false else e.anomaly }) ∧
    (value + limit < press ∨ press + limit < value → e.compare count limit press value =
      { e with inside := none, outside := some (next e.outside),
               anomaly := if (next e.outside).target ≤ (next e.outside).count then true else e.anomaly })) ∧
  ∀ (tag : Byte) (n raw : Nat) (p : Point) (r : Segment) (s : State),
    s.grid.engine.state.inService = true → s.grid.NetworkSound →
    s.grid.point? n = some p → p.st.kind = .extremity → p.lock = .locked → raw ≤ 4095 → r ∈ s.grid.segs →
    r.st.extremity = some n →
    ∃ t p' v r', exec (.sample tag n raw 0) s = .next t ∧ t.grid.point? n = some p' ∧ p'.smoothed = some v ∧
      t.grid.seg? r.num = some r' ∧
      (∀ link level, r.supply = .fed link → r.est.level = some level →
        (∀ f, s.grid.feed? link.feed = some f → f.stale = false) →
        r'.est = r.est.compare s.grid.engine.consts.anomaly r.st.deviation level.press v ∧
          (r'.est.anomaly ≠ r.est.anomaly → t.Reports .segAnomaly r.num)) ∧
      (∀ link f, r.supply = .fed link → s.grid.feed? link.feed = some f → f.stale = true → r'.est = r.est) ∧
      (r.supply.isFed = false ∨ r.est.level = none → r'.est = r.est)

/-! ### Valves -/

/-- Adding and removing a holder, and issuing an order: the effects of 04 R66, R67 with Table 4-2, and R68. -/
def Obligations.HoldersMoveValves : Prop :=
  ∀ (c : Ctx) (v : Valve) (target : Position) (n : Nat),
    (v.issue c target).counter = (v.counter + 1) % 256 ∧
    (v.issue c target).order = some ⟨(v.counter + 1) % 256, target, c.net, c.now + BitVec.ofNat 32 v.st.timeout⟩ ∧
    (v.issue c target).state = (match target with | .opened => .opening | .closed => .closing) ∧
    (v.issue c target).known = (match target with | .opened => .closed | .closed => .opened) ∧
    (v.issue c target).reopen = (match target with | .opened => false | .closed => v.reopen) ∧
    (∀ h : Holder,
      (v.addHolder c h).reopen = false ∧ (v.addHolder c h).uncommanded = false ∧
      (v.addHolder c h).isos = (match h with | .isolation k => insertNum k v.isos | .plain | .timed _ => v.isos) ∧
      (v.addHolder c h).hold = (match h with
        | .isolation _ => (match v.hold with | .none => .none | .plain | .timed _ => .plain)
        | .plain => .plain
        | .timed e => .timed e) ∧
      (v.state = .opened ∨ v.state = .opening → (v.addHolder c h).state = .closing ∧
        (v.addHolder c h).order =
          some ⟨(v.counter + 1) % 256, .closed, c.net, c.now + BitVec.ofNat 32 v.st.timeout⟩) ∧
      (v.state = .closing ∨ v.state = .closed ∨ v.state = .stuck →
        (v.addHolder c h).state = v.state ∧ (v.addHolder c h).order = v.order)) ∧
    (∀ w, w = v.dropIso c n → n ∈ v.isos →
      w.isos = v.isos.filter (fun k => k != n) ∧ w.hold = v.hold ∧
      (w.isos ≠ [] ∨ v.hold ≠ .none ∨ v.st.kind = .tie ∨ v.state = .stuck →
        w = { v with isos := v.isos.filter fun k => k != n }) ∧
      (w.isos = [] → v.hold = .none → v.st.kind ≠ .tie →
        (v.state = .closed → w.state = .opening ∧ w.counter = (v.counter + 1) % 256) ∧
        (v.state = .closing → w = { v with isos := [], reopen := true }))) ∧
    (∀ w, w = v.dropHold c →
      (v.isos ≠ [] ∨ v.state = .stuck → w = { v with hold := .none }) ∧
      (v.isos = [] → v.state = .closed → w.state = .opening ∧ w.hold = .none ∧
        w.counter = (v.counter + 1) % 256) ∧
      (v.isos = [] → v.state = .closing → w = { v with hold := .none, reopen := true }))

/-- VALVE-REPORT in VERIFYING (04 R75): no valve has a holder there. What the reply's fields say, and that an absent order is
a mark alone, is log 14's reading. -/
def Obligations.ReportVerifiesValve : Prop :=
  ∀ (tag : Byte) (n code : Nat) (report : Report) (v : Valve) (s : State), s.grid.engine.state = .verifying →
    s.grid.valve? n = some v → v.isos = [] → Report.ofCode code = some report →
    let deadline := s.grid.engine.run + BitVec.ofNat 32 s.grid.engine.consts.verify
    let f : Valve → Valve := fun r =>
      match report with
      | .opened => { r with verified := true, state := .opened, known := .opened, fault := none, unverified := false,
                            verifyDeadline := none }
      | .closed => { r with verified := true, state := .closed, known := .closed, fault := none, unverified := false,
                            verifyDeadline := some deadline }
      | .moving | .fault => { r with verified := true, state := .stuck, fault := some ⟨.fieldFault, s.grid.net⟩,
                                     verifyDeadline := none }
    (f v = v → exec (.valveReport tag n code) s =
      .next (s.told ⟨0x21, tag, be 2 n ++ be 1 code⟩ .noChange (reportBytes v))) ∧
    (f v ≠ v → ∃ t, exec (.valveReport tag n code) s = .next t ∧
      t.grid.valves = s.grid.valves.map (fun r => if r.num = n then f r else r) ∧
      t.grid.points = s.grid.points ∧ t.grid.isos = s.grid.isos ∧ s.Replies t 0xA1 tag .done (reportBytes (f v)) ∧
      ((∃ r ∈ t.grid.valves, r.verified = false) → t.grid.engine = s.grid.engine) ∧
      ((∀ r ∈ t.grid.valves, r.verified = true) → (∀ r ∈ s.grid.feeds, s.grid.feedLocked r = true) →
        v.verified = false → t.grid.engine = { s.grid.engine with state := .live }))

/-- VALVE-REPORT in service: the new valve by Tables 4-4 and 4-5 and R78, and, on a valve that holds no isolation,
nothing else but what follows from it; a report that changes nothing answers NO-CHANGE (04 R75 to R79). A report that
ends the last order in ADOPT-PENDING adopts the copy, or returns to MAINTENANCE with the conflict (04 R69, 09 R155, R156).
What the reply's fields say, and that an absent order is a mark alone, is log 14's reading. -/
def Obligations.ReportMovesValve : Prop :=
  ∀ (tag : Byte) (n code : Nat) (report : Report) (v : Valve) (s : State), s.grid.engine.state.inService = true →
    s.grid.valve? n = some v → Report.ofCode code = some report →
    let c := s.grid.ctx
    let w := v.report c report
    let fresh := some (s.grid.engine.run + BitVec.ofNat 32 s.grid.engine.consts.verify)
    let stuck (k : Position) (x : FaultKind) : Valve :=
      { v with state := .stuck, known := k, order := none, verifyDeadline := none, moving := false,
               fault := some ⟨x, s.grid.net⟩ }
    (w = v → exec (.valveReport tag n code) s =
      .next (s.told ⟨0x21, tag, be 2 n ++ be 1 code⟩ .noChange (reportBytes v))) ∧
    (w ≠ v → s.grid.NoQuiescence n w → ∃ t, exec (.valveReport tag n code) s = .next t ∧
      t.grid.valve? n = some w ∧
      s.Replies t 0xA1 tag .done (reportBytes w) ∧
      (v.isos = [] → t.grid.Follows (s.grid.onValve n fun r => r.report c report)) ∧
      (w.state = .stuck → v.state ≠ .stuck → t.Reports .valveState n ∧ t.pins.alert = true)) ∧
    (∀ topo cursor, s.grid.engine.state = .adoptPending → s.grid.engine.staging = some ⟨topo, cursor⟩ →
      s.grid.NetworkSound → s.grid.ordered ≠ [] →
      let g := s.grid.valveEvent n none fun r => r.report c report
      g.ordered = [] → ∃ t, exec (.valveReport tag n code) s = .next t ∧
        s.AdoptsOrReturns t (((Work.start s.grid).on fun _ => g).resolveChanges s.grid).grid topo) ∧
    (v.state = .closing → report = .closed → v.reopen = false ∨ v.isos ≠ [] ∨ v.hold ≠ .none →
      w = { v with state := .closed, known := .closed, order := none, verifyDeadline := fresh, moving := false,
                   unverified := false }) ∧
    (v.state = .closing → report = .closed → v.reopen = true → v.isos = [] → v.hold = .none →
      w.state = .opening ∧ w.known = .closed ∧ w.reopen = false ∧ w.counter = (v.counter + 1) % 256 ∧
        w.order.map (fun o => o.target) = some .opened) ∧
    (v.state = .opening → report = .opened →
      w = { v with state := .opened, known := .opened, order := none, verifyDeadline := none, moving := false,
                   unverified := false }) ∧
    (v.state = .closing ∧ report = .opened ∨ v.state = .opening ∧ report = .closed → w = v) ∧
    (report = .moving → v.state = .closing ∨ v.state = .opening ∨ v.state = .opened → w = { v with moving := true }) ∧
    (report = .fault → v.state = .closing ∨ v.state = .opened → w = stuck .opened .fieldFault) ∧
    (report = .fault → v.state = .opening ∨ v.state = .closed → w = stuck .closed .fieldFault) ∧
    (v.state = .opened → report = .opened → w = { v with unverified := false, moving := false }) ∧
    (v.state = .opened → report = .closed →
      w = { v with state := .closed, known := .closed, order := none, verifyDeadline := fresh, moving := false,
                   uncommanded := true, unverified := false }) ∧
    (v.state = .closed → report = .closed →
      w = { v with verifyDeadline := fresh, unverified := false, moving := false }) ∧
    (v.state = .closed → report = .opened ∨ report = .moving → w = stuck .opened .positionLost) ∧
    (v.state = .stuck → w = (match report with
      | .opened => { v with known := .opened }
      | .closed => { v with known := .closed }
      | .moving | .fault => v))

/-- VALVE-CLOSE and VALVE-CLOSE-TIMED by the valve's state; in ADOPT-PENDING what would issue an order is BUSY (04 R70 to
R72). -/
def Obligations.ValveCloseHolds : Prop :=
  ∀ (tag : Byte) (n d : Nat) (v : Valve) (s : State), s.grid.engine.state.inService = true → s.grid.IsosSound →
    s.grid.valve? n = some v →
    let c := s.grid.ctx
    let applied := max 60 (min 86400 d)
    let w := v.addHolder c (.timed (s.grid.engine.run + BitVec.ofNat 32 applied))
    (v.state = .stuck → exec (.valveClose tag n) s = .next (s.told ⟨0x30, tag, be 2 n⟩ .faultPending [])) ∧
    (v.hold = .plain → v.state = .closed ∨ v.state = .closing ∧ v.reopen = false →
      exec (.valveClose tag n) s = .next (s.told ⟨0x30, tag, be 2 n⟩ .noChange (operatorBytes v))) ∧
    (s.grid.engine.state = .adoptPending → v.state = .opened ∨ v.state = .opening →
      exec (.valveClose tag n) s = .next (s.told ⟨0x30, tag, be 2 n⟩ .busy [])) ∧
    (s.grid.AtWork ∧ (v.state = .opened ∨ v.state = .opening) ∨
        v.state = .closing ∧ (v.hold ≠ .plain ∨ v.reopen = true) ∨ v.state = .closed ∧ v.hold ≠ .plain →
      ∃ t, exec (.valveClose tag n) s = .next t ∧ t.grid.valve? n = some (v.addHolder c .plain) ∧
        t.grid.Follows (s.grid.onValve n fun r => r.addHolder c .plain) ∧
        s.Replies t 0xB0 tag .done (operatorBytes (v.addHolder c .plain)) ∧
        (v.hold ≠ .plain → t.Reports .valveHolders n)) ∧
    (s.grid.engine.state = .adoptPending → v.state = .opened → exec (.valveCloseTimed tag n d) s =
      .next (s.told ⟨0x31, tag, be 2 n ++ be 4 d⟩ .busy [])) ∧
    (s.grid.AtWork → v.state = .opened → ∃ t, exec (.valveCloseTimed tag n d) s = .next t ∧
      t.grid.valve? n = some w ∧
      t.grid.Follows (s.grid.onValve n fun r =>
        r.addHolder c (.timed (s.grid.engine.run + BitVec.ofNat 32 applied))) ∧
      s.Replies t 0xB1 tag .done (operatorBytes w ++ be 4 applied) ∧ t.Reports .valveOrder n) ∧
    (v.state ≠ .opened → exec (.valveCloseTimed tag n d) s =
      .next (s.told ⟨0x31, tag, be 2 n ++ be 4 d⟩
        (match v.state with | .closed => .wrongState | .stuck => .faultPending | _ => .busy) []))

/-- VALVE-OPEN by the valve's state; in ADOPT-PENDING one that would issue an order is BUSY (04 R70, R73). -/
def Obligations.ValveOpenReleases : Prop :=
  ∀ (tag : Byte) (n : Nat) (v : Valve) (s : State), s.grid.engine.state.inService = true → s.grid.IsosSound →
    s.grid.valve? n = some v →
    let c := s.grid.ctx
    (v.state = .stuck → exec (.valveOpen tag n) s = .next (s.told ⟨0x32, tag, be 2 n⟩ .faultPending [])) ∧
    (v.state = .opened ∨ v.state = .opening →
      exec (.valveOpen tag n) s = .next (s.told ⟨0x32, tag, be 2 n⟩ .noChange (operatorBytes v))) ∧
    (s.grid.engine.state = .adoptPending → v.state = .closed → v.isos = [] →
      exec (.valveOpen tag n) s = .next (s.told ⟨0x32, tag, be 2 n⟩ .busy [])) ∧
    (v.state = .closing ∨ v.state = .closed ∧ (v.isos ≠ [] ∨ s.grid.AtWork) → ∃ t, exec (.valveOpen tag n) s = .next t ∧
      t.grid.valve? n = some (v.dropHold c) ∧ t.grid.Follows (s.grid.onValve n fun r => r.dropHold c) ∧
      s.Replies t 0xB2 tag (if v.isos = [] then .done else .held) (operatorBytes (v.dropHold c)))

/-- CLEAR-FAULT takes a STUCK valve to the declared position and serves its holders or its reopen-pending mark; in any
other state it is refused, and in ADOPT-PENDING one that would issue an order is BUSY (04 R70, R74). What the reply's fields
say is log 14's reading. -/
def Obligations.ClearFaultDeclares : Prop :=
  ∀ (tag : Byte) (n code : Nat) (p : Position) (v : Valve) (s : State), s.grid.engine.state.inService = true →
    s.grid.valve? n = some v → Position.ofCode code = some p →
    let c := s.grid.ctx
    let orders : Bool := match p with
      | .closed => v.reopen && v.isos == [] && v.hold == .none
      | .opened => v.isos != [] || v.hold != .none
    let closed : Valve := { v with
      state := .closed, known := .closed, order := none, moving := false, fault := none, uncommanded := false,
      verifyDeadline := some (s.grid.engine.run + BitVec.ofNat 32 s.grid.engine.consts.verify) }
    let opened : Valve := { v with
      state := .opened, known := .opened, order := none, moving := false, fault := none, uncommanded := false,
      verifyDeadline := none, reopen := false }
    (v.state ≠ .stuck →
      exec (.clearFault tag n code) s = .next (s.told ⟨0x33, tag, be 2 n ++ be 1 code⟩ .wrongState [])) ∧
    (v.state = .stuck → s.grid.engine.state = .adoptPending → orders = true →
      exec (.clearFault tag n code) s = .next (s.told ⟨0x33, tag, be 2 n ++ be 1 code⟩ .busy [])) ∧
    (v.state = .stuck → s.grid.AtWork ∨ s.grid.NetworkSound ∧ orders = false →
      ∃ t w, exec (.clearFault tag n code) s = .next t ∧ t.grid.valve? n = some w ∧
      w = (match p with
        | .closed => if v.reopen ∧ v.isos = [] ∧ v.hold = .none then closed.issue c .opened else closed
        | .opened => if v.isos = [] ∧ v.hold = .none then opened else opened.issue c .closed) ∧
      t.grid.valves = (s.grid.onValve n fun r => r.clearFault c p).valves ∧
      t.grid.engine = s.grid.engine ∧ t.grid.points = s.grid.points ∧
      (v.isos = [] → t.grid.Follows (s.grid.onValve n fun r => r.clearFault c p)) ∧
      s.Replies t 0xB3 tag .done (operatorBytes w) ∧ t.Reports .valveState n)

/-- ORDER_TIMEOUT makes the valve STUCK with TIMEOUT, its known position kept, and raises ALERT (04 R79 to R81). A timeout
that ends the last order in ADOPT-PENDING adopts the copy, or returns to MAINTENANCE with the conflict (04 R69, 09 R155,
R156). A timer that is stopped or not due has no expiry (log 6). -/
def Obligations.OrderTimesOut : Prop :=
  ∀ (n : Nat) (v : Valve) (s : State), s.grid.engine.state.inService = true → s.grid.valve? n = some v →
    (v.order = none → exec (.orderTimeout n) s = .next s) ∧
    (∀ o, v.order = some o → reached s.grid.engine.run o.deadline = false → exec (.orderTimeout n) s = .next s) ∧
    (∀ o topo cursor, v.order = some o → reached s.grid.engine.run o.deadline = true →
      s.grid.engine.state = .adoptPending → s.grid.engine.staging = some ⟨topo, cursor⟩ → s.grid.NetworkSound →
      let g := s.grid.valveEvent n none fun r => r.timeOut s.grid.ctx
      g.ordered = [] → ∃ t, exec (.orderTimeout n) s = .next t ∧
        s.AdoptsOrReturns t (((Work.start s.grid).on fun _ => g).resolveChanges s.grid).grid topo) ∧
    (∀ o, v.order = some o → reached s.grid.engine.run o.deadline = true → v.state ≠ .stuck →
      s.grid.NoQuiescence n (v.timeOut s.grid.ctx) → ∃ t, exec (.orderTimeout n) s = .next t ∧
        t.grid.valve? n = some { v with
          state := .stuck, order := none, verifyDeadline := none, moving := false,
          fault := some ⟨.timeout, s.grid.net⟩ } ∧
        (v.isos = [] → t.grid.Follows (s.grid.onValve n fun r =>
          { r with state := .stuck, order := none, verifyDeadline := none, moving := false,
                   fault := some ⟨.timeout, s.grid.net⟩ })) ∧
        t.Reports .valveState n ∧ t.Reports .valveOrder n ∧ t.pins.alert = true)

/-- TIMED_HOLD_EXPIRY removes the hold, and the valve reopens, or waits to (04 R82); VERIFY_DEADLINE_EXPIRY sets the
UNVERIFIED flag and removes the deadline, in VERIFYING too (04 R83). A timer that is stopped or not due has no expiry
(log 6). -/
def Obligations.HoldAndVerifyExpire : Prop :=
  ∀ (n : Nat) (v : Valve) (s : State), s.grid.engine.state.notLoaded = false → s.grid.IsosSound →
    s.grid.valve? n = some v →
    (v.hold = .none ∨ v.hold = .plain → exec (.timedHoldExpiry n) s = .next s) ∧
    (v.verifyDeadline = none → exec (.verifyDeadlineExpiry n) s = .next s) ∧
    (∀ e, v.hold = .timed e → reached s.grid.engine.run e = false → exec (.timedHoldExpiry n) s = .next s) ∧
    (∀ e, v.verifyDeadline = some e → reached s.grid.engine.run e = false →
      exec (.verifyDeadlineExpiry n) s = .next s) ∧
    (∀ e, v.hold = .timed e → reached s.grid.engine.run e = true → ∃ t, exec (.timedHoldExpiry n) s = .next t ∧
      t.grid.valve? n = some (v.dropHold s.grid.ctx) ∧
      t.grid.Follows (s.grid.onValve n fun r => r.dropHold s.grid.ctx) ∧ t.Reports .valveHolders n) ∧
    (∀ e, v.verifyDeadline = some e → reached s.grid.engine.run e = true →
      ∃ t, exec (.verifyDeadlineExpiry n) s = .next t ∧
        t.grid.valve? n = some { v with unverified := true, verifyDeadline := none } ∧
        t.grid.Follows (s.grid.onValve n fun r => { r with unverified := true, verifyDeadline := none }) ∧
        t.Reports .valveVerify n)

/-! ### Isolations -/

/-- The stage of an unreleased isolation follows its entries, and its held time follows its stage (05 R90). Entry into
HELD makes a linked call in AWAITING-ISOLATION MADE-SAFE and its crew AVAILABLE; else calls and crews stay (05 R91, 07
R134). -/
def Obligations.StageFollowsEntries : Prop :=
  ∀ (g : Grid) (k : Nat) (i : Isolation), g.iso? k = some i → i.released = false →
    ∃ j, (g.restage k).iso? k = some j ∧ j.plan = i.plan ∧ (g.restage k).valves = g.valves ∧
      ((∃ e ∈ i.plan, e.status = .failed) → j.stage = .failed) ∧
      ((∀ e ∈ i.plan, e.status ≠ .failed) → (∃ e ∈ i.plan, e.status = .waiting) →
        j.stage = if ∃ e ∈ i.plan, e.status = .bypassed then .widening else .closing) ∧
      ((∀ e ∈ i.plan, e.status = .closed ∨ e.status = .bypassed) → j.stage = .held) ∧
      (j.stage = .held → i.stage ≠ .held → j.held = some g.net) ∧ (i.stage = .held → j.stage ≠ .held → j.held = none) ∧
      (i.stage = j.stage → j = i) ∧ j.call = i.call ∧
      (∀ m c, j.stage = .held → i.stage ≠ .held → i.call = some m → g.call? m = some c → c.state = .awaitingIsolation →
        (g.restage k).call? m = some { c with state := .madeSafe, crew := none } ∧
        (∀ x w, c.crew = some x → g.crew? x = some w →
          (g.restage k).crew? x = some { w with state := .available, call := none }) ∧
        ∀ x, x ≠ m → (g.restage k).call? x = g.call? x) ∧
      (j.stage ≠ .held ∨ i.stage = .held ∨ (∀ m c, i.call = some m → g.call? m = some c → c.state ≠ .awaitingIsolation) →
        (g.restage k).calls = g.calls ∧ (g.restage k).crews = g.crews)

/-- ISOLATE makes a record with the next free number: one BOUNDARY entry for each touching valve, FALLBACK entries behind
stuck ones, each plan valve held once, and no other valve changed (05 R88 to R90, R92, R96, R97). A given ON-SITE call is
linked, and goes on to MADE-SAFE when the isolation is HELD at once (05 R94). In ADOPT-PENDING it is BUSY. -/
def Obligations.IsolateMakesPlan : Prop :=
  ∀ (tag : Byte) (n m : Nat) (s : State),
    (s.grid.engine.state = .adoptPending →
      exec (.isolate tag n m) s = .next (s.told ⟨0x34, tag, be 2 n ++ be 2 m⟩ .busy [])) ∧
    ∀ r : Segment, s.grid.AtWork → s.grid.NetworkSound → s.grid.IsosSound → s.grid.isos.length < 32 →
      s.grid.seg? n = some r → s.grid.isoOf n = none →
      m = 0 ∨ (∃ c, s.grid.call? m = some c ∧ c.state = .onSite) →
      ∃ t k i, exec (.isolate tag n m) s = .next t ∧ 1 ≤ k ∧ k ≤ 255 ∧ s.grid.iso? k = none ∧
        t.grid.iso? k = some i ∧ i.target = n ∧ i.call = (if m = 0 then none else some m) ∧
        i.started = s.grid.net ∧ i.released = false ∧
        i.stage = stageOf i.plan ∧ i.held = (if i.stage = .held then some s.grid.net else none) ∧
        ((i.plan.filter fun e => e.role == .boundary).map fun e => e.valve) =
          ((s.grid.touching n).map fun v => v.num) ∧
        (i.plan.map fun e => e.valve).Nodup ∧
        (∀ e ∈ i.plan, e.role = .boundary → ∀ v, s.grid.valve? e.valve = some v → e.behind = none ∧
          e.status = (match v.state with
            | .closed => .closed
            | .stuck => if v.st.fallbacks = [] then .failed else .bypassed
            | .opened | .closing | .opening => .waiting)) ∧
        (∀ e ∈ i.plan, e.role = .fallback → ∃ b v w, e.behind = some b ∧ s.grid.valve? b = some v ∧ v.state = .stuck ∧
          e.valve ∈ v.st.fallbacks ∧ s.grid.valve? e.valve = some w ∧
          e.status = (match w.state with
            | .closed => .closed
            | .stuck => .failed
            | .opened | .closing | .opening => .waiting)) ∧
        t.grid.Follows { s.grid with
          valves := s.grid.valves.map fun v =>
            if i.plan.any fun e => e.valve == v.num then v.addHolder s.grid.ctx (.isolation k) else v
          isos := insertBy (fun j => j.num) i
            (s.grid.isos.map fun j => if m ≠ 0 ∧ j.call = some m then { j with call := none } else j)
          calls := s.grid.calls.map fun c => if m ≠ 0 ∧ c.num = m then { c with iso := some k } else c
          lastIso := k } ∧
        (∀ c, m ≠ 0 → s.grid.call? m = some c → t.grid.call? m = some { c with
          iso := some k
          state := if i.stage = .held then .madeSafe else .awaitingIsolation
          crew := if i.stage = .held then none else c.crew
          eff := ((t.grid.call? m).map fun x => x.eff).getD 0 }) ∧
        s.Replies t 0xB4 tag .done (be 2 k ++ be 1 i.stage.code ++ be 1 i.plan.length) ∧
        t.Reports .isoStage k ∧ t.Reports .isoPlan k ∧ (m ≠ 0 → t.Reports .isoLink k)

/-- ISOLATE of a segment already isolated makes no record; a given ON-SITE call is linked when the isolation has none, or
is linked with it still, and goes on to MADE-SAFE when the isolation is HELD (05 R93, R94, 07 R134). -/
def Obligations.IsolateAgainLinksCall : Prop :=
  ∀ (tag : Byte) (n m : Nat) (r : Segment) (i : Isolation) (s : State), s.grid.AtWork → s.grid.IsosSound →
    s.grid.seg? n = some r → s.grid.isoOf n = some i →
    (m = 0 → exec (.isolate tag n m) s =
      .next (s.told ⟨0x34, tag, be 2 n ++ be 2 m⟩ .noChange (be 2 i.num ++ be 1 i.stage.code))) ∧
    (∀ c, m ≠ 0 → s.grid.call? m = some c → c.state ≠ .onSite →
      exec (.isolate tag n m) s = .next (s.told ⟨0x34, tag, be 2 n ++ be 2 m⟩ .wrongState [])) ∧
    (∀ c other, m ≠ 0 → s.grid.call? m = some c → c.state = .onSite → i.call = some other → other ≠ m →
      exec (.isolate tag n m) s =
        .next (s.told ⟨0x34, tag, be 2 n ++ be 2 m⟩ .noChange (be 2 i.num ++ be 1 i.stage.code ++ be 2 other))) ∧
    (∀ c, m ≠ 0 → s.grid.call? m = some c → c.state = .onSite → i.call = none →
      ∃ t c', exec (.isolate tag n m) s = .next t ∧ t.grid.call? m = some c' ∧ c'.iso = some i.num ∧
        c'.state = (if i.stage = .held then .madeSafe else .awaitingIsolation) ∧
        t.grid.iso? i.num = some { i with call := some m } ∧
        (∀ j ∈ t.grid.isos, j.num ≠ i.num → j.call ≠ some m) ∧ t.grid.valves = s.grid.valves ∧
        s.Replies t 0xB4 tag .noChange (be 2 i.num ++ be 1 i.stage.code) ∧ t.Reports .isoLink i.num) ∧
    (∀ c, m ≠ 0 → s.grid.call? m = some c → c.state = .onSite → i.call = some m →
      ∃ t c', exec (.isolate tag n m) s = .next t ∧ t.grid.call? m = some c' ∧ c'.iso = some i.num ∧
        c'.state = (if i.stage = .held then .madeSafe else .awaitingIsolation) ∧
        c'.crew = (if i.stage = .held then none else c.crew) ∧
        t.grid.isos = s.grid.isos ∧ t.grid.valves = s.grid.valves ∧
        s.Replies t 0xB4 tag .noChange (be 2 i.num ++ be 1 i.stage.code ++ be 2 m))

/-- What a plan valve's entry into CLOSED or STUCK, and a CLEAR-FAULT on it, does to its entry (05 R95, R96, R98); an
event that is none of these, one that leaves a CLOSED or STUCK valve in its state too, changes nothing. The sticking of
a BOUNDARY valve appends its fallbacks that are not in the plan, in their order, up to four behind it, and holds each
(05 R97). -/
def Obligations.PlanEntryFollowsValve : Prop :=
  ∀ (g : Grid) (k : Nat) (i : Isolation) (e : Entry) (v w : Valve) (cleared : Option Position),
    g.iso? k = some i → i.entry? w.num = some e → g.valve? w.num = some w → v.num = w.num →
    ∃ j e', (g.takeHandOff v w cleared k).iso? k = some j ∧ j.entry? w.num = some e' ∧
      e'.valve = e.valve ∧ e'.role = e.role ∧ e'.behind = e.behind ∧
      (v.state ≠ .stuck → w.state = .stuck →
        e'.status = if e.role = .boundary ∧ w.st.fallbacks ≠ [] then .bypassed else .failed) ∧
      (v.state = .stuck → cleared = some .closed → e'.status = .closed) ∧
      (v.state = .stuck → cleared = some .opened →
        e'.status = if e.status = .bypassed ∨ e.status = .failed then .waiting else e.status) ∧
      (cleared = none → v.state ≠ .closed → w.state = .closed →
        e'.status = if e.status = .waiting then .closed else e.status) ∧
      (cleared = none → w.state ≠ .stuck ∨ v.state = .stuck → w.state ≠ .closed ∨ v.state = .closed →
        g.takeHandOff v w cleared k = g) ∧
      (v.state ≠ .stuck → w.state = .stuck → e.role = .boundary → w.st.fallbacks.Nodup →
        let fresh := (w.st.fallbacks.filter fun f => !i.holds f && (g.valve? f).isSome).take
          (4 - (i.plan.filter fun x => x.behind == some w.num).length)
        j.plan.map (fun x => (x.valve, x.role, x.behind)) =
          i.plan.map (fun x => (x.valve, x.role, x.behind)) ++ fresh.map (fun f => (f, .fallback, some w.num)) ∧
        (g.takeHandOff v w cleared k).valves =
          g.valves.map (fun u => if u.num ∈ fresh then u.addHolder g.ctx (.isolation k) else u) ∧
        ∀ f ∈ fresh, ∀ u, g.valve? f = some u → (j.entry? f).map (fun x => x.status) =
          some (match u.state with
            | .closed => .closed
            | .stuck => .failed
            | .opened | .closing | .opening => .waiting))

/-- RELEASE takes the isolation from every plan valve with the effects of 04 R67, closes the record, and returns an
AWAITING-ISOLATION call to ON-SITE; the reply counts the orders and the reopen-pending marks (05 R101, R102). -/
def Obligations.ReleaseReturnsValves : Prop :=
  ∀ (tag : Byte) (k : Nat) (i : Isolation) (s : State), s.grid.engine.state.inService = true → s.grid.IsosSound →
    s.grid.WithinCapacity → s.grid.NetworkSound → s.grid.iso? k = some i →
    (i.released = true → exec (.release tag k) s = .next (s.told ⟨0x35, tag, be 2 k⟩ .wrongState [])) ∧
    (i.released = false → ∃ t, exec (.release tag k) s = .next t ∧
      t.grid.valves = s.grid.valves.map (fun v =>
        if i.plan.any fun e => e.valve == v.num then v.dropIso s.grid.ctx k else v) ∧
      t.grid.iso? k = some { i with released := true, stage := .released, held := none, call := none } ∧
      (∀ m, m ≠ k → t.grid.iso? m = s.grid.iso? m) ∧
      t.grid.engine = s.grid.engine ∧ t.grid.points = s.grid.points ∧
      (∀ m c, i.call = some m → s.grid.call? m = some c → ∃ c', t.grid.call? m = some c' ∧ c'.iso = none ∧
        (c.state = .awaitingIsolation → c'.state = .onSite ∧ c'.crew = c.crew)) ∧
      t.Reports .isoReleased k ∧
      s.Replies t 0xB5 tag .done
        (let own := s.grid.valves.filter fun v => (i.plan.any fun e => e.valve == v.num) && v.isos.contains k &&
           v.isos.all (fun m => m == k) && v.hold == .none && v.st.kind != .tie
         be 2 k ++ be 1 (own.filter fun v => v.state == .closed).length ++
           be 1 (own.filter fun v => v.state == .closing && !v.reopen).length))

/-! ### Outages and restoration -/

/-- What a change of supply state does to a segment: the estimate cleared, an outage opened, lost again or moved to
REPRESSURIZING (03 R53, 06 R109 to R111). What a recomputation does to the stable count, and the entry into RELIGHTING
(06 R112, R113). What a reached tree is recomputed from: its feed's input, which becomes the tree input (03 R47, R49;
without members, log 13); without one, at a STRUCTURE cause the tree input, and no other cause recomputes it (03 R51).
The account of a passability change (04 R84) and the cause of an outage (06 R108). -/
def Obligations.SupplyMovesOutage : Prop :=
  (∀ (net : Sec) (k : Nat) (c : OutageCause) (sup : Supply) (m : Bool) (s : Segment),
    let t := s.resolved net k c sup m
    let off := s.st.customers - s.unrelit
    t.num = s.num ∧ t.st = s.st ∧ t.supply = sup ∧ t.meshed = m ∧ t.unrelit = s.unrelit ∧ t.summary = s.summary ∧
    (s.supply ≠ .unfed → sup = .unfed →
      t.est = ⟨0, 0, 0, none, false, none, none⟩ ∧
      (s.outage = none → t.outage = some ⟨c, .off, off, 0, 0, 0, none, 0, net, off⟩) ∧
      (∀ p, s.outage = some p → p.stage ≠ .off → t.outage = some
        { p with stage := .off, cause := c, repeats := min 255 (p.repeats + 1), off := off, relit := 0, stable := 0,
                 target := none, peak := max p.peak off })) ∧
    (s.supply = .unfed → sup.isFed = true → t.est = s.est ∧
      (s.outage = none → t.outage = none) ∧
      (∀ p, s.outage = some p → p.stage = .off →
        t.outage = some { p with stage := .repressurizing, stable := 0, target := some k })) ∧
    (s.supply.isFed = true ∨ s.supply = .unknown → sup.isFed = true → t.est = s.est ∧ t.outage = s.outage) ∧
    (s.supply = .unfed → sup = .unfed → t.est = s.est ∧ t.outage = s.outage)) ∧
  (∀ (k : Nat) (net : Sec) (sampled : Bool) (s : Segment),
    let t := s.stableUpdate k net sampled
    (s.outage = none → t = s) ∧
    ∀ p, s.outage = some p →
      (p.stage = .off ∨ p.stage = .repressurizing ∧ s.band = none ∨
        p.stage = .repressurizing ∧ s.band ≠ some .short ∧ sampled = false ∨
        p.stage = .relighting ∧ s.band ≠ some .short → t = s) ∧
      (p.stage ≠ .off → s.band = some .short → t = { s with outage := some { p with stable := 0, target := some k } }) ∧
      (∀ x target, p.stage = .repressurizing → s.band = some x → x ≠ .short → sampled = true → p.target = some target →
        let n := min 15 (p.stable + 1)
        (n < target → t = { s with outage := some { p with stable := n } }) ∧
        (target ≤ n → 0 < p.off → t = { s with outage := some { p with stage := .relighting, stable := n } }) ∧
        (target ≤ n → p.off = 0 → t = { s with
          outage := none, summary := some ⟨p.cause, p.started, net, p.peak, p.relit, 0, p.repeats⟩ }))) ∧
  (∀ (g : Grid) (f : Nat) (p0 : Option Nat) (sampled : Bool) (regained : List Nat) (r : Segment),
    (g.segs.map fun x => x.num).Nodup → r ∈ g.segs →
    (r.supply.feed? = some f → ∃ flow press, (g.recompute f p0 sampled regained).seg? r.num =
      some ((r.estimated g.engine.weather flow press).stableUpdate g.engine.consts.stable g.net
        (sampled && !regained.contains r.num))) ∧
    (r.supply.feed? ≠ some f → (g.recompute f p0 sampled regained).seg? r.num = some r)) ∧
  (∀ (g : Grid) (f : Nat) (fd : Feed) (causes : List TreeCause) (regained : List Nat), g.NetworkSound →
    g.engine.state.inService = true → g.feed? f = some fd →
    let h := g.recomputeFor f causes regained
    (∀ i, fd.input = some i → fd.presence = .present →
      (∃ r ∈ g.segs, r.supply.feed? = some f) ∨ (∃ c ∈ causes, c ≠ .restructured) →
      h.Estimated f (some i.value) ∧
        h.feeds = g.feeds.map (fun r => if r.num = f then { r with treeInput := some i.value } else r)) ∧
    (fd.input = none → .restructured ∈ causes → h.Estimated f fd.treeInput ∧ h.feeds = g.feeds) ∧
    (fd.input = none → .restructured ∉ causes → h = g)) ∧
  (∀ v w : Valve,
    let byHolder := match w.isos with
      | n :: _ => .isolation n
      | [] => .operator
    accountOf v w = (match v.state, w.state with
      | .closing, _ => byHolder
      | .opening, .closing => byHolder
      | .opening, _ => .operator
      | .opened, _ => .uncommanded
      | .stuck, .stuck => .fault
      | .stuck, _ => .operator
      | .closed, _ => .fault)) ∧
  Trigger.first.cause = .initial ∧ Trigger.adoption.cause = .initial ∧
  (∀ (a b : List PassChange) (c : PassChange) (fs : List (Nat × Presence)),
    (∀ x ∈ a, x.gained = true) → c.gained = false →
    (Trigger.changes (a ++ c :: b) fs).cause = (match c.account with
      | .isolation n => .isolation n
      | .operator => .operator c.valve
      | .uncommanded => .uncommanded c.valve
      | .fault => .fault c.valve)) ∧
  ∀ (vs : List PassChange) (a b : List (Nat × Presence)) (f : Nat),
    (∀ x ∈ vs, x.gained = true) → (∀ x ∈ a, x.2 ≠ .failed) →
    (Trigger.changes vs (a ++ (f, .failed) :: b)).cause = .feedFailed f

/-- RELIGHT moves the applied count from off to relit, or out of the unrelit count, ends an outage left with nobody off,
and is refused on a SHORT band or outside RELIGHTING; SETTLE moves the off count to unrelit and ends the outage (06 R114
to R116). The relit count of a reply without a part is a free value (log 20). -/
def Obligations.RelightAndSettleCounts : Prop :=
  ∀ (tag : Byte) (n count : Nat) (r : Segment) (s : State), s.grid.engine.state.inService = true →
    s.grid.NetworkSound → s.grid.seg? n = some r →
    (r.band = some .short →
      exec (.relight tag n count) s = .next (s.told ⟨0x50, tag, be 2 n ++ be 2 count⟩ .lowPressure [])) ∧
    (∀ p, r.band ≠ some .short → r.outage = some p → p.stage ≠ .relighting →
      exec (.relight tag n count) s = .next (s.told ⟨0x50, tag, be 2 n ++ be 2 count⟩ .wrongState [])) ∧
    (r.band ≠ some .short → r.outage = none → r.supply = .unfed ∨ r.unrelit = 0 →
      exec (.relight tag n count) s = .next (s.told ⟨0x50, tag, be 2 n ++ be 2 count⟩ .wrongState [])) ∧
    (∀ p, r.band ≠ some .short → r.outage = some p → p.stage = .relighting →
      let a := min (max 1 (min 1000 count)) p.off
      ∃ t r', exec (.relight tag n count) s = .next t ∧ t.grid.seg? n = some r' ∧ r'.unrelit = r.unrelit ∧
        (a < p.off → ∃ q, r'.outage = some q ∧ q.off = p.off - a ∧ q.relit = p.relit + a ∧ q.stage = .relighting) ∧
        (a = p.off → r'.outage = none ∧ r'.summary = some ⟨p.cause, p.started, s.grid.net, p.peak, p.relit + a, 0,
          p.repeats⟩) ∧
        (∀ m, m ≠ n → (t.grid.seg? m).map (fun x => (x.outage.map fun q => (q.off, q.relit), x.unrelit)) =
          (s.grid.seg? m).map fun x => (x.outage.map fun q => (q.off, q.relit), x.unrelit)) ∧
        s.Replies t 0xD0 tag .done (relightBytes a r')) ∧
    (r.band ≠ some .short → r.outage = none → r.supply ≠ .unfed → r.unrelit ≠ 0 →
      let a := min (max 1 (min 1000 count)) r.unrelit
      ∃ t r', exec (.relight tag n count) s = .next t ∧ t.grid.seg? n = some r' ∧ r'.unrelit = r.unrelit - a ∧
        r'.outage = none ∧ s.Replies t 0xD0 tag .done (relightBytes a r')) ∧
    (r.outage.any (fun p => p.stage == .relighting) = false →
      exec (.settle tag n) s = .next (s.told ⟨0x51, tag, be 2 n⟩ .wrongState [])) ∧
    (∀ p, r.outage = some p → p.stage = .relighting → ∃ t r', exec (.settle tag n) s = .next t ∧
      t.grid.seg? n = some r' ∧ r'.outage = none ∧ r'.unrelit = r.unrelit + p.off ∧
      r'.summary = some ⟨p.cause, p.started, s.grid.net, p.peak, p.relit, p.off, p.repeats⟩ ∧ r'.est = r.est ∧
      s.Replies t 0xD1 tag .done (be 2 p.off ++ be 2 (r.unrelit + p.off)) ∧ t.Reports .segOutage n)

/-! ### Calls and crews -/

/-- A CALL that neither merges nor is counted into an outage makes a WAITING record with the next free number, whose
effective grade is 07 R126's; without an AVAILABLE crew it stays WAITING (07 R120 to R122, R125 to R127). -/
def Obligations.CallMakesRecord : Prop :=
  ∀ (tag : Byte) (code n key grade : Nat) (kind : CallKind) (r : Segment) (s : State),
    s.grid.engine.state.notLoaded = false → CallKind.ofCode code = some kind → s.grid.seg? n = some r →
    s.grid.mergeWith kind n key = none → kind = .escape ∨ r.outage = none → s.grid.calls.length < 256 →
    let applied := max 1 (min 4 grade)
    let k := nextNumber 65535 (s.grid.calls.map fun c => c.num) s.grid.calls.length s.grid.lastCall
    let c : Call :=
      { num := k, arrival := s.grid.arrival + 1, kind := kind, seg := n, key := key, base := applied, eff := 0,
        state := .waiting, received := s.grid.net,
        deadline := s.grid.engine.run + BitVec.ofNat 32 (s.grid.engine.consts.attend applied),
        overdue := false, repeats := 0, crew := none, iso := none, withdrawn := false }
    ∃ t c', exec (.call tag code n key grade) s = .next t ∧ 1 ≤ k ∧ k ≤ 65535 ∧ s.grid.call? k = none ∧
      t.grid.Follows (s.grid.addCall c) ∧ t.grid.call? k = some c' ∧
      c' = { c with eff := c'.eff, state := c'.state, crew := c'.crew } ∧
      (∀ r', t.grid.seg? n = some r' →
        let a := if r'.est.anomaly = true ∨ t.grid.engine.consts.cluster ≤ r'.escapes then 1 else 0
        let u := if r'.supply = .unfed then 1 else 0
        c'.eff = min 4 (max 1 (applied + u - a))) ∧
      ((∀ w ∈ s.grid.crews, w.state ≠ .available) → c'.state = .waiting ∧ c'.crew = none) ∧
      s.Replies t 0xC0 tag .done
        (be 2 k ++ be 1 applied ++ be 1 c'.eff ++ be 4 c.deadline.toNat ++ be 1 c'.state.code ++ refBytes c'.crew) ∧
      t.Reports .callState k ∧ (applied = 1 → t.pins.alert = true)

/-- The other outcomes of CALL: a merge raises the repeat count and may lower the grade and the deadline; a NO-SUPPLY call
on a segment with an outage is counted there; a full table refuses and raises ALERT (07 R122 to R125, 06 R117). That REPEAT
and NO-SUPPLY are posted also when the count stays at 255 or 65,535 is log 26's reading. -/
def Obligations.CallMergesCountsOrFull : Prop :=
  ∀ (tag : Byte) (code n key grade : Nat) (kind : CallKind) (r : Segment) (s : State),
    s.grid.engine.state.notLoaded = false → CallKind.ofCode code = some kind → s.grid.seg? n = some r →
    let applied := max 1 (min 4 grade)
    (∀ c, s.grid.mergeWith kind n key = some c → s.grid.WithinCapacity →
      ∃ t c', exec (.call tag code n key grade) s = .next t ∧ t.grid.call? c.num = some c' ∧
        c'.repeats = min 255 (c.repeats + 1) ∧ c'.base = min c.base applied ∧
        (c.base ≤ applied → c'.deadline = c.deadline ∧ c'.overdue = c.overdue) ∧
        (applied < c.base →
          c'.deadline = earlier s.grid.engine.run c.deadline
            (s.grid.engine.run + BitVec.ofNat 32 (s.grid.engine.consts.attend applied)) ∧
          c'.overdue = (c.overdue || (c.state == .waiting || c.state == .assigned) &&
            reached s.grid.engine.run c'.deadline)) ∧
        t.grid.calls.length = s.grid.calls.length ∧
        s.Replies t 0xC0 tag .merged (be 2 c.num ++ be 1 c'.state.code ++ be 1 c'.base ++ be 1 c'.eff ++ be 1 applied) ∧
        t.Reports .callRepeat c.num) ∧
    (∀ p, s.grid.mergeWith kind n key = none → kind = .noSupply → r.outage = some p → s.grid.NetworkSound →
      ∃ t r', exec (.call tag code n key grade) s = .next t ∧ t.grid.seg? n = some r' ∧
        r'.outage = some { p with reports := min 65535 (p.reports + 1) } ∧
        t.grid.calls.map (fun x => (x.num, x.base, x.repeats)) = s.grid.calls.map (fun x => (x.num, x.base, x.repeats)) ∧
        s.Replies t 0xC0 tag .merged (be 2 0 ++ be 1 applied) ∧ t.Reports .segNoSupply n) ∧
    (s.grid.mergeWith kind n key = none → kind = .escape ∨ r.outage = none → 256 ≤ s.grid.calls.length →
      ∃ t, exec (.call tag code n key grade) s = .next t ∧ t.grid = s.grid ∧
        s.Replies t 0xC0 tag .full [] ∧ t.Reports .engineCallRefused 0 ∧ t.pins.alert = true)

/-- ASSIGN gives a WAITING call a crew that is AVAILABLE or ASSIGNED, and a call the crew was taken from waits again
(07 R131). -/
def Obligations.AssignTakesCrew : Prop :=
  ∀ (tag : Byte) (m k : Nat) (c : Call) (w : Crew) (s : State), s.grid.engine.state.notLoaded = false →
    s.grid.call? m = some c → s.grid.crew? k = some w →
    (c.state ≠ .waiting ∨ w.state = .offShift ∨ w.state = .onSite →
      exec (.assign tag m k) s = .next (s.told ⟨0x43, tag, be 2 m ++ be 2 k⟩ .wrongState [])) ∧
    (c.state = .waiting → w.state = .available ∨ w.state = .assigned → ∃ t c' w', exec (.assign tag m k) s = .next t ∧
      t.grid.call? m = some c' ∧ c'.state = .assigned ∧ c'.crew = some k ∧
      t.grid.crew? k = some w' ∧ w'.state = .assigned ∧ w'.call = some m ∧ w'.home = w.home ∧
      (∀ o x, w.call = some o → o ≠ m → s.grid.call? o = some x → (∀ y ∈ s.grid.crews, y.num ≠ k → y.state ≠ .available) →
        ∃ x', t.grid.call? o = some x' ∧ x'.state = .waiting ∧ x'.crew = none ∧ x'.withdrawn = x.withdrawn) ∧
      t.grid.Follows s.grid ∧ s.Replies t 0xC3 tag .done (be 1 1 ++ be 2 k ++ numBytes w.call))

/-- CALL-EVENT ON-SITE, MADE-SAFE and CLOSE: the states each is taken from and what each does to the call, its crew and
its isolation (07 R132, R133, 05 R100). That the reply to CLOSE carries the state it leaves is log 19's reading. -/
def Obligations.CallEventsMoveCall : Prop :=
  ∀ (tag : Byte) (m : Nat) (c : Call) (s : State), s.grid.engine.state.notLoaded = false → s.grid.call? m = some c →
    (c.state ≠ .assigned →
      exec (.callEventOnSite tag m) s = .next (s.told ⟨0x41, tag, be 2 m ++ be 1 0⟩ .wrongState [])) ∧
    (c.state ≠ .onSite →
      exec (.callEventMadeSafe tag m) s = .next (s.told ⟨0x41, tag, be 2 m ++ be 1 1⟩ .wrongState [])) ∧
    (c.state = .closed →
      exec (.callEventClose tag m) s = .next (s.told ⟨0x41, tag, be 2 m ++ be 1 2⟩ .wrongState [])) ∧
    (c.state = .assigned → ∃ t c', exec (.callEventOnSite tag m) s = .next t ∧ t.grid.call? m = some c' ∧
      c'.state = .onSite ∧ c'.crew = c.crew ∧ c'.deadline = c.deadline ∧ c'.overdue = c.overdue ∧
      (∀ k w, c.crew = some k → s.grid.crew? k = some w → ∃ w', t.grid.crew? k = some w' ∧ w'.state = .onSite ∧
        w'.call = w.call) ∧
      t.grid.Follows s.grid ∧ s.Replies t 0xC1 tag .done [2]) ∧
    (c.state = .onSite → ∃ t c', exec (.callEventMadeSafe tag m) s = .next t ∧ t.grid.call? m = some c' ∧
      c'.state = .madeSafe ∧ c'.crew = none ∧ c'.iso = c.iso ∧
      (∀ k w, c.crew = some k → s.grid.crew? k = some w → (∀ x ∈ s.grid.calls, x.state ≠ .waiting) →
        ∃ w', t.grid.crew? k = some w' ∧ w'.state = .available ∧ w'.call = none) ∧
      t.grid.Follows s.grid ∧ s.Replies t 0xC1 tag .done [4]) ∧
    (c.state ≠ .closed → ∃ t c', exec (.callEventClose tag m) s = .next t ∧ t.grid.call? m = some c' ∧
      c'.state = .closed ∧ c'.crew = none ∧ c'.iso = none ∧ c'.overdue = c.overdue ∧ c'.withdrawn = c.withdrawn ∧
      c'.base = c.base ∧ c'.repeats = c.repeats ∧ (∀ i ∈ t.grid.isos, i.call ≠ some m) ∧
      (∀ k w, c.crew = some k → s.grid.crew? k = some w → (∀ x ∈ s.grid.calls, x.num = m ∨ x.state ≠ .waiting) →
        ∃ w', t.grid.crew? k = some w' ∧ w'.state = .available ∧ w'.call = none) ∧
      t.grid.valves = s.grid.valves ∧ s.Replies t 0xC1 tag .done [5] ∧ t.Reports .callClosed m)

/-- CREW puts a crew on or off shift with its home feed; OFF withdraws the call it holds, which waits again with its
deadline and becomes overdue at once when that is past (07 R135). -/
def Obligations.CrewShiftsAndWithdraws : Prop :=
  ∀ (tag : Byte) (k h code : Nat) (w : Crew) (f : Feed) (s : State), s.grid.engine.state.notLoaded = false →
    s.grid.crew? k = some w → s.grid.feed? h = some f →
    (1 < code → exec (.crew tag k h code) s = .next (s.told ⟨0x42, tag, be 2 k ++ be 2 h ++ be 1 code⟩ .range [])) ∧
    (w.home = some h → code = 0 ∧ w.state ≠ .offShift ∨ code = 1 ∧ w.state = .offShift ∧ w.call = none →
      exec (.crew tag k h code) s =
        .next (s.told ⟨0x42, tag, be 2 k ++ be 2 h ++ be 1 code⟩ .noChange (be 1 w.state.code))) ∧
    (code = 0 → w.state = .offShift → (∀ x ∈ s.grid.calls, x.state ≠ .waiting) →
      ∃ t, exec (.crew tag k h code) s = .next t ∧
        t.grid.crew? k = some { w with state := .available, home := some h } ∧
        s.Replies t 0xC2 tag .done (be 1 1) ∧ t.Reports .crewState k) ∧
    (code = 0 → w.state ≠ .offShift → w.home ≠ some h → (∀ x ∈ s.grid.calls, x.state ≠ .waiting) →
      ∃ t, exec (.crew tag k h code) s = .next t ∧ t.grid.crew? k = some { w with home := some h } ∧
        s.Replies t 0xC2 tag .done (be 1 w.state.code)) ∧
    (code = 1 → w.state = .available → ∃ t w', exec (.crew tag k h code) s = .next t ∧ t.grid.crew? k = some w' ∧
      w' = { w with state := .offShift, call := none, home := some h } ∧ s.Replies t 0xC2 tag .done (be 1 0)) ∧
    (∀ m c, code = 1 → w.state = .assigned ∨ w.state = .onSite → w.call = some m → s.grid.call? m = some c →
      (∀ y ∈ s.grid.crews, y.num ≠ k → y.state ≠ .available) →
      ∃ t c', exec (.crew tag k h code) s = .next t ∧
        t.grid.crew? k = some { w with state := .offShift, call := none, home := some h } ∧
        t.grid.call? m = some c' ∧ c'.state = .waiting ∧ c'.crew = none ∧ c'.withdrawn = true ∧
        c'.deadline = c.deadline ∧ c'.iso = c.iso ∧
        c'.overdue = (c.overdue || reached s.grid.engine.run c.deadline) ∧
        s.Replies t 0xC2 tag .done (be 1 0 ++ be 2 m ++ be 1 0))

/-- CALL_DEADLINE_EXPIRY sets the overdue mark, with effective grade 0, and raises ALERT (07 R136). A timer that is
stopped or not due has no expiry (log 6). -/
def Obligations.CallDeadlineExpires : Prop :=
  ∀ (m : Nat) (c : Call) (s : State), s.grid.engine.state.notLoaded = false → s.grid.call? m = some c →
    ((c.state ≠ .waiting ∧ c.state ≠ .assigned) ∨ c.overdue = true ∨ reached s.grid.engine.run c.deadline = false →
      exec (.callDeadlineExpiry m) s = .next s) ∧
    (c.state = .waiting ∨ c.state = .assigned → c.overdue = false → reached s.grid.engine.run c.deadline = true →
      ∃ t c', exec (.callDeadlineExpiry m) s = .next t ∧ t.grid.call? m = some c' ∧
        c' = { c with overdue := true, eff := 0, state := c'.state, crew := c'.crew } ∧
        ((∀ w ∈ s.grid.crews, w.state ≠ .available) → c'.state = c.state ∧ c'.crew = c.crew) ∧
        t.grid.Follows (s.grid.onCall m fun x => { x with overdue := true }) ∧
        t.Reports .callOverdue m ∧ t.pins.alert = true)

/-- The dispatch queue holds the WAITING calls by effective grade, deadline and arrival; how two deadlines compare across the
wrap (`timeKey`) is the model's choice (log 7). A dispatch pass with a WAITING call and an AVAILABLE crew gives the queue's
head a crew, the lowest-numbered AVAILABLE crew of its segment's home feed, else the lowest-numbered AVAILABLE crew, and
goes on as a pass over the records that leaves; with no WAITING call or no AVAILABLE crew it changes nothing, and it leaves
none together (07 R128, R130). -/
def Obligations.DispatchServesQueue : Prop :=
  ∀ g : Grid,
    g.queue.Perm (g.calls.filter fun c => c.state == .waiting) ∧
    g.queue.Pairwise (fun a b => a.eff < b.eff ∨ a.eff = b.eff ∧
      (timeKey g.now a.deadline < timeKey g.now b.deadline ∨
        timeKey g.now a.deadline = timeKey g.now b.deadline ∧ a.arrival.toNat ≤ b.arrival.toNat)) ∧
    ((∀ c ∈ g.dispatchPass.calls, c.state ≠ .waiting) ∨ ∀ w ∈ g.dispatchPass.crews, w.state ≠ .available) ∧
    ((∀ c ∈ g.calls, c.state ≠ .waiting) ∨ (∀ w ∈ g.crews, w.state ≠ .available) → g.dispatchPass = g) ∧
    (∀ c, g.queue.head? = some c → (∃ w ∈ g.crews, w.state = .available) → ∃ w, g.choose c = some w ∧
      g.dispatchPass = Grid.dispatchPass { g with
        calls := g.calls.map (fun x => if x.num = c.num then { x with state := .assigned, crew := some w.num } else x),
        crews := g.crews.map (fun x => if x.num = w.num then { x with state := .assigned, call := some c.num } else x) } ∧
      ((g.calls.map fun x => x.num).Nodup → (g.crews.map fun x => x.num).Nodup →
        g.dispatchPass.call? c.num = some { c with state := .assigned, crew := some w.num } ∧
        g.dispatchPass.crew? w.num = some { w with state := .assigned, call := some c.num })) ∧
    (∀ c w, g.queue.head? = some c → g.choose c = some w →
      w ∈ g.crews ∧ w.state = .available ∧
      (∀ x ∈ g.crews, x.state = .available → x.home = (g.seg? c.seg).map (fun r => r.st.homeFeed) → x.home ≠ none →
        w.home = x.home) ∧
      ((g.crews.map fun x => x.num).Pairwise (· < ·) → ∀ x ∈ g.crews, x.state = .available →
        (w.home ≠ none ∧ w.home = (g.seg? c.seg).map (fun r => r.st.homeFeed) → x.home = w.home → w.num ≤ x.num) ∧
        (w.home = none ∨ w.home ≠ (g.seg? c.seg).map (fun r => r.st.homeFeed) → w.num ≤ x.num)))

/-! ### Conditions and watch screens -/

/-- SCREEN-SET defines and enables a screen and builds its sets from nothing; SCREEN-OFF disables it and empties them
(08 R144, R145). Bits 13 to 15 of the two sets stand for no condition (log 18). -/
def Obligations.ScreenSetAndOff : Prop :=
  ∀ (tag : Byte) (n u scope care required : Nat) (sc : Screen) (s : State), s.grid.engine.state.notLoaded = false →
    s.grid.screen? n = some sc →
    (∀ urgency f, Urgency.ofCode u = some urgency → s.grid.scopeOf scope = some f →
      let need := BitVec.ofNat 13 required &&& BitVec.ofNat 13 care
      let hits := (s.grid.segs.filter fun r => (f == none || f == some r.st.homeFeed) &&
        (Condition.all.all fun x => !(BitVec.ofNat 13 care).getLsbD x.bit ||
          r.conds.getLsbD x.bit == need.getLsbD x.bit)).map fun r => r.num
      ∃ t, exec (.screenSet tag n u scope care required) s = .next t ∧
        t.grid = s.grid.onScreen n (fun _ =>
          { num := n, enabled := true, urgency := urgency, scope := f, care := BitVec.ofNat 13 care, required := need,
            matched := hits, entered := hits, left := [] }) ∧
        s.Replies t 0xE0 tag .done (be 2 hits.length) ∧ t.Reports .screenDefinition n ∧
        (hits ≠ [] → t.Reports .screenEntered n ∧ (urgency = .urgent → t.pins.alert = true))) ∧
    (sc.enabled = false → exec (.screenOff tag n) s = .next (s.told ⟨0x61, tag, be 2 n⟩ .noChange [])) ∧
    (sc.enabled = true → ∃ t, exec (.screenOff tag n) s = .next t ∧
      t.grid = s.grid.onScreen n (fun r => { r with enabled := false, matched := [], entered := [], left := [] }) ∧
      s.Replies t 0xE1 tag .done [] ∧ t.Reports .screenDefinition n ∧ ¬ t.Reports .screenEntered n ∧
      ¬ t.Reports .screenLeft n)

/-- At the end of an event every segment's counts are the numbers of its open calls of each kind (07 R137), every open call
has the grade of 07 R126 (R127), and every vector is what Table 8-1 gives (08 R139 to R141); that these are settled at the
event's end, in this order, is logs 11 and 12. Every enabled screen whose match set was right before it, and at an adoption
every enabled screen, holds exactly the segments that match; what entered stands in its entered set, and what left, a deleted
segment too, in its left set (08 R142, R143). -/
def Obligations.MonitorFollowsEvent : Prop :=
  ∀ (before : Grid) (w : Work),
    (∀ r ∈ (w.finished before).segs, ∀ x : Condition,
      r.conds.getLsbD x.bit = (w.finished before).holds r x) ∧
    (∀ g, g = w.finished before → (g.calls.map fun c => c.num).Nodup →
      (∀ r ∈ g.segs,
        r.escapes = (g.calls.filter fun c =>
          c.state ≠ .madeSafe ∧ c.state ≠ .closed ∧ c.kind = .escape ∧ c.seg = r.num).length ∧
        r.noSupply = (g.calls.filter fun c =>
          c.state ≠ .madeSafe ∧ c.state ≠ .closed ∧ c.kind = .noSupply ∧ c.seg = r.num).length) ∧
      ∀ c ∈ g.calls, ∀ r, c.state ≠ .madeSafe → c.state ≠ .closed → g.seg? c.seg = some r →
        let a := if r.est.anomaly = true ∨ g.engine.consts.cluster ≤ r.escapes then 1 else 0
        let u := if r.supply = .unfed then 1 else 0
        c.eff = if c.overdue = true then 0 else min 4 (max 1 (c.base + u - a))) ∧
    (∀ sc ∈ w.grid.screens, sc.enabled = true → (w.grid.segs.map fun r => r.num).Nodup →
      (∀ stg, w.grid.engine.staging = some stg → stg.topo.Ascending) →
      w.adopted = true ∨ before.segs.map (fun r => (r.num, r.st)) = w.grid.segs.map (fun r => (r.num, r.st)) ∧
        (∀ r ∈ before.segs, r.num ∈ sc.matched ↔ sc.matches r = true) →
      ∃ sc' ∈ (w.finished before).screens, sc'.num = sc.num ∧ sc'.care = sc.care ∧ sc'.required = sc.required ∧
        sc'.scope = sc.scope ∧ sc'.enabled = true ∧
        (∀ r ∈ (w.finished before).segs, r.num ∈ sc'.matched ↔ sc'.matches r = true) ∧
        ((∀ m ∈ sc.matched, m ∈ w.grid.segs.map fun r => r.num) →
          ∀ m ∈ sc'.matched, m ∈ (w.finished before).segs.map fun r => r.num) ∧
        (∀ m, m ∈ sc'.matched → m ∉ sc.matched → m ∈ sc'.entered) ∧
        (∀ m, m ∈ sc.matched → m ∉ sc'.matched → m ∈ sc'.left)) ∧
    (∀ (topo : Topology) (sc : Screen), sc ∈ w.grid.screens → ∃ sc' ∈ (w.adopt topo).grid.screens,
      sc' = { sc with matched := sc'.matched, entered := sc'.entered, left := sc'.left } ∧
      (w.adopt topo).adopted = true ∧
      ∀ r ∈ w.grid.segs, (∀ st, (r.num, st) ∉ topo.segs) →
        r.num ∉ sc'.matched ∧ r.num ∉ sc'.entered ∧ (r.num ∈ sc.matched → r.num ∈ sc'.left))

/-! ### The rules' arithmetic -/

/-- Passability by state and known position (01 R12, Table 1-6). -/
def Obligations.PassabilityTable : Prop :=
  ∀ v : Valve,
    ((v.state = .opened ∨ v.state = .closing) → v.passable = true) ∧
    ((v.state = .closed ∨ v.state = .opening) → v.passable = false) ∧
    (v.state = .stuck → v.known = .opened → v.passable = true) ∧
    (v.state = .stuck → v.known = .closed → v.passable = false)

/-- Demand from customers on supply, unit load and weather factor (03 R54). -/
def Obligations.DemandProduct : Prop :=
  ∀ (weather : Nat) (s : Segment),
    demandOf weather s * 1000 ≤ s.onSupply * s.st.unitLoad * weather ∧
    s.onSupply * s.st.unitLoad * weather < demandOf weather s * 1000 + 1000 ∧
    demandOf 0 s = 0 ∧ demandOf 1000 s = s.onSupply * s.st.unitLoad ∧
    (s.st.customers ≤ 20000 → s.st.unitLoad ≤ 4000 → weather ≤ 2000 → demandOf weather s ≤ 160000000)

/-- Drop: the square of the flow times the resistance, half of 10^12 added, divided by 10^12, limited to 999,999 (03
R56). -/
def Obligations.DropRounds : Prop :=
  ∀ r f : Nat,
    (∀ q, q ≤ 999999 → (dropOf r f = q ↔ (if q = 999999 then 999998500000000000 < 1 + f * f * r
      else q * 1000000000000 ≤ f * f * r + 500000000000 ∧ f * f * r + 500000000000 < (q + 1) * 1000000000000))) ∧
    dropOf r f ≤ 999999 ∧ dropOf 0 f = 0 ∧ dropOf r 0 = 0 ∧
    dropOf 150 1692000 = 429 ∧ dropOf 150 1800000 = 486 ∧ dropOf 150 1900000 = 542 ∧ dropOf 900 23570 = 0 ∧
    dropOf 9999999 99999999 = 999999

/-- The new band of a recomputation, by the rows and columns of Table 3-4 with its notes; without an end pressure the
band is none (03 R58). -/
def Obligations.BandTable : Prop :=
  ∀ (m : Int) (w h weather flow : Nat) (s : Segment),
    (∀ b, m < 0 → bandFor b m w h = .short) ∧
    (∀ b, b = none ∨ b = some .normal → 0 ≤ m → bandFor b m w h = if m < w then .low else .normal) ∧
    (0 ≤ m → bandFor (some .low) m w h = if m < w + h then .low else .normal) ∧
    (0 ≤ m → bandFor (some .short) m w h = if m < h then .short else if m < w + h then .low else .normal) ∧
    (s.estimated weather flow none).band = none ∧
    (∀ p : Nat, (s.estimated weather flow (some p)).band =
      some (bandFor s.band ((p : Int) - s.st.minimum) s.st.warn s.st.hysteresis))

/-! ### Encoding, invariants and reachability -/

/-- Every well-formed request is carried by a frame that the receiver accepts and that names the request again (11 Tables
11-2 and 11-5). -/
def Obligations.RequestFrameRoundTrip : Prop :=
  ∀ (i : Instr) (f : Frame), i.wellFormed = true → frameOf i = some f →
    requestOf f = some i ∧ (requestKinds.lookup f.kind.toNat).any (fun ls => ls.contains f.payload.length) = true

/-- Every step keeps the link sound: one notice entry for a record, none without a change, NOTE and ALERT following the
list, TXD idle between frames, two requests held at most (10 R161, R163, R164). That TXD idles at the end of every step, a
frame being sent whole in one, is the model's choice (log 4). -/
def Obligations.StepKeepsLinkSound : Prop :=
  ∀ s t : State, s.LinkSound → step s = .next t → t.LinkSound

/-- Every step keeps the tables within their capacities, calls and isolations numbered apart, unreleased isolations at the
stage of their entries, and each valve's known position tied to its state (00 Table 4, 04 R65, 05 R88, R90, 07 R121). It keeps the constants in their
ranges, a live segment for every call that is not CLOSED, a crew's call with that crew, and a CLOSED call for every CLOSED
change too (00 Table 5, 07 R120, R133, 09 R150, R157). -/
def Obligations.StepKeepsTablesSound : Prop :=
  ∀ s t : State, s.grid.NetworkSound → s.grid.WithinCapacity → s.grid.IsosSound → s.grid.ValvesSound → step s = .next t →
    t.grid.WithinCapacity ∧ t.grid.IsosSound ∧ t.grid.ValvesSound ∧ (s.CallsSound → t.CallsSound)

/-- Every step keeps the network sound: ascending numbers, distinct feed points, a valid copy in ADOPT-PENDING, orders exactly on
moving valves, and in service every segment's supply as a resolution of the present valves and feeds gives it (01 R8,
R14, R16, R19, 04 R68, 09 R155). -/
def Obligations.StepKeepsNetworkSound : Prop :=
  ∀ s t : State, s.grid.NetworkSound → step s = .next t → t.grid.NetworkSound

/-- The reset state meets the invariants. -/
def Obligations.ResetMeetsInvariants : Prop :=
  State.reset.LinkSound ∧ State.reset.grid.WithinCapacity ∧ State.reset.grid.IsosSound ∧
    State.reset.grid.ValvesSound ∧ State.reset.grid.NetworkSound ∧ State.reset.CallsSound

/-- A resolution makes a segment FED exactly when a chain of passable valves joins it to a PRESENT feed, and its distance is
the least length of such a chain (01 R15). Its effective parent lies one nearer across its parent valve, the lowest-numbered
valve to such a neighbour, and gives it its supplying feed (01 R16). It is MESHED exactly when a passable valve that is no
parent valve joins it to a FED segment or a PRESENT feed (01 R17). -/
def Obligations.FedExactlyWhenSupplied : Prop :=
  ∀ (g : Grid) (n : Nat), (g.valves.map fun v => v.num).Pairwise (· < ·) → n ∈ g.segs.map (fun r => r.num) →
    let sup := supplyIn g.reachedSegs
    ((sup n).isFed = true ↔ g.Supplied n) ∧
    (∀ l, sup n = .fed l →
      g.Chain n l.dist ∧ (∀ k, g.Chain n k → l.dist ≤ k) ∧
      (∃ v ∈ g.valves, v.num = l.valve ∧ v.passable = true ∧ v.st.across n = some l.parent) ∧
      g.OneNearer sup l.dist l.parent ∧
      (∀ v ∈ g.valves, ∀ x, v.passable = true → v.st.across n = some x → g.OneNearer sup l.dist x → l.valve ≤ v.num) ∧
      l.feed = match l.parent with
        | .feed f => f
        | .seg m => ((sup m).feed?).getD 0) ∧
    (meshedIn g g.reachedSegs n = true ↔ ∃ l, sup n = .fed l ∧ ∃ v ∈ g.valves, v.passable = true ∧ v.num ≠ l.valve ∧
      ((∃ m l', v.st.across n = some (.seg m) ∧ sup m = .fed l' ∧ l'.valve ≠ v.num) ∨
        ∃ f fd, v.st.across n = some (.feed f) ∧ fd ∈ g.feeds ∧ fd.num = f ∧ fd.presence = .present))
end

