-- ==== Sys2Proof/Laws/State.lean ====
section
/-! SUPPORT. One lemma for each field of each update of the records and of the machine, true by rfl, so that no proof
unfolds a record update. -/
namespace Sys2Proof.Machine

variable (g : Grid) (s : State)

/-! ### onSeg -/

@[simp] theorem Grid.onSeg_engine (n : Nat) (f : Segment → Segment) : (g.onSeg n f).engine = g.engine := rfl
@[simp] theorem Grid.onSeg_segs (n : Nat) (f : Segment → Segment) :
    (g.onSeg n f).segs = g.segs.map fun r => if r.num = n then f r else r := rfl
@[simp] theorem Grid.onSeg_valves (n : Nat) (f : Segment → Segment) : (g.onSeg n f).valves = g.valves := rfl
@[simp] theorem Grid.onSeg_points (n : Nat) (f : Segment → Segment) : (g.onSeg n f).points = g.points := rfl
@[simp] theorem Grid.onSeg_feeds (n : Nat) (f : Segment → Segment) : (g.onSeg n f).feeds = g.feeds := rfl
@[simp] theorem Grid.onSeg_calls (n : Nat) (f : Segment → Segment) : (g.onSeg n f).calls = g.calls := rfl
@[simp] theorem Grid.onSeg_crews (n : Nat) (f : Segment → Segment) : (g.onSeg n f).crews = g.crews := rfl
@[simp] theorem Grid.onSeg_isos (n : Nat) (f : Segment → Segment) : (g.onSeg n f).isos = g.isos := rfl
@[simp] theorem Grid.onSeg_screens (n : Nat) (f : Segment → Segment) : (g.onSeg n f).screens = g.screens := rfl
@[simp] theorem Grid.onSeg_lastCall (n : Nat) (f : Segment → Segment) : (g.onSeg n f).lastCall = g.lastCall := rfl
@[simp] theorem Grid.onSeg_arrival (n : Nat) (f : Segment → Segment) : (g.onSeg n f).arrival = g.arrival := rfl
@[simp] theorem Grid.onSeg_lastIso (n : Nat) (f : Segment → Segment) : (g.onSeg n f).lastIso = g.lastIso := rfl

/-! ### onValve -/

@[simp] theorem Grid.onValve_engine (n : Nat) (f : Valve → Valve) : (g.onValve n f).engine = g.engine := rfl
@[simp] theorem Grid.onValve_segs (n : Nat) (f : Valve → Valve) : (g.onValve n f).segs = g.segs := rfl
@[simp] theorem Grid.onValve_valves (n : Nat) (f : Valve → Valve) :
    (g.onValve n f).valves = g.valves.map fun r => if r.num = n then f r else r := rfl
@[simp] theorem Grid.onValve_points (n : Nat) (f : Valve → Valve) : (g.onValve n f).points = g.points := rfl
@[simp] theorem Grid.onValve_feeds (n : Nat) (f : Valve → Valve) : (g.onValve n f).feeds = g.feeds := rfl
@[simp] theorem Grid.onValve_calls (n : Nat) (f : Valve → Valve) : (g.onValve n f).calls = g.calls := rfl
@[simp] theorem Grid.onValve_crews (n : Nat) (f : Valve → Valve) : (g.onValve n f).crews = g.crews := rfl
@[simp] theorem Grid.onValve_isos (n : Nat) (f : Valve → Valve) : (g.onValve n f).isos = g.isos := rfl
@[simp] theorem Grid.onValve_screens (n : Nat) (f : Valve → Valve) : (g.onValve n f).screens = g.screens := rfl
@[simp] theorem Grid.onValve_lastCall (n : Nat) (f : Valve → Valve) : (g.onValve n f).lastCall = g.lastCall := rfl
@[simp] theorem Grid.onValve_arrival (n : Nat) (f : Valve → Valve) : (g.onValve n f).arrival = g.arrival := rfl
@[simp] theorem Grid.onValve_lastIso (n : Nat) (f : Valve → Valve) : (g.onValve n f).lastIso = g.lastIso := rfl

/-! ### onPoint -/

@[simp] theorem Grid.onPoint_engine (n : Nat) (f : Point → Point) : (g.onPoint n f).engine = g.engine := rfl
@[simp] theorem Grid.onPoint_segs (n : Nat) (f : Point → Point) : (g.onPoint n f).segs = g.segs := rfl
@[simp] theorem Grid.onPoint_valves (n : Nat) (f : Point → Point) : (g.onPoint n f).valves = g.valves := rfl
@[simp] theorem Grid.onPoint_points (n : Nat) (f : Point → Point) :
    (g.onPoint n f).points = g.points.map fun r => if r.num = n then f r else r := rfl
@[simp] theorem Grid.onPoint_feeds (n : Nat) (f : Point → Point) : (g.onPoint n f).feeds = g.feeds := rfl
@[simp] theorem Grid.onPoint_calls (n : Nat) (f : Point → Point) : (g.onPoint n f).calls = g.calls := rfl
@[simp] theorem Grid.onPoint_crews (n : Nat) (f : Point → Point) : (g.onPoint n f).crews = g.crews := rfl
@[simp] theorem Grid.onPoint_isos (n : Nat) (f : Point → Point) : (g.onPoint n f).isos = g.isos := rfl
@[simp] theorem Grid.onPoint_screens (n : Nat) (f : Point → Point) : (g.onPoint n f).screens = g.screens := rfl
@[simp] theorem Grid.onPoint_lastCall (n : Nat) (f : Point → Point) : (g.onPoint n f).lastCall = g.lastCall := rfl
@[simp] theorem Grid.onPoint_arrival (n : Nat) (f : Point → Point) : (g.onPoint n f).arrival = g.arrival := rfl
@[simp] theorem Grid.onPoint_lastIso (n : Nat) (f : Point → Point) : (g.onPoint n f).lastIso = g.lastIso := rfl

/-! ### onFeed -/

@[simp] theorem Grid.onFeed_engine (n : Nat) (f : Feed → Feed) : (g.onFeed n f).engine = g.engine := rfl
@[simp] theorem Grid.onFeed_segs (n : Nat) (f : Feed → Feed) : (g.onFeed n f).segs = g.segs := rfl
@[simp] theorem Grid.onFeed_valves (n : Nat) (f : Feed → Feed) : (g.onFeed n f).valves = g.valves := rfl
@[simp] theorem Grid.onFeed_points (n : Nat) (f : Feed → Feed) : (g.onFeed n f).points = g.points := rfl
@[simp] theorem Grid.onFeed_feeds (n : Nat) (f : Feed → Feed) :
    (g.onFeed n f).feeds = g.feeds.map fun r => if r.num = n then f r else r := rfl
@[simp] theorem Grid.onFeed_calls (n : Nat) (f : Feed → Feed) : (g.onFeed n f).calls = g.calls := rfl
@[simp] theorem Grid.onFeed_crews (n : Nat) (f : Feed → Feed) : (g.onFeed n f).crews = g.crews := rfl
@[simp] theorem Grid.onFeed_isos (n : Nat) (f : Feed → Feed) : (g.onFeed n f).isos = g.isos := rfl
@[simp] theorem Grid.onFeed_screens (n : Nat) (f : Feed → Feed) : (g.onFeed n f).screens = g.screens := rfl
@[simp] theorem Grid.onFeed_lastCall (n : Nat) (f : Feed → Feed) : (g.onFeed n f).lastCall = g.lastCall := rfl
@[simp] theorem Grid.onFeed_arrival (n : Nat) (f : Feed → Feed) : (g.onFeed n f).arrival = g.arrival := rfl
@[simp] theorem Grid.onFeed_lastIso (n : Nat) (f : Feed → Feed) : (g.onFeed n f).lastIso = g.lastIso := rfl

/-! ### onCall -/

@[simp] theorem Grid.onCall_engine (n : Nat) (f : Call → Call) : (g.onCall n f).engine = g.engine := rfl
@[simp] theorem Grid.onCall_segs (n : Nat) (f : Call → Call) : (g.onCall n f).segs = g.segs := rfl
@[simp] theorem Grid.onCall_valves (n : Nat) (f : Call → Call) : (g.onCall n f).valves = g.valves := rfl
@[simp] theorem Grid.onCall_points (n : Nat) (f : Call → Call) : (g.onCall n f).points = g.points := rfl
@[simp] theorem Grid.onCall_feeds (n : Nat) (f : Call → Call) : (g.onCall n f).feeds = g.feeds := rfl
@[simp] theorem Grid.onCall_calls (n : Nat) (f : Call → Call) :
    (g.onCall n f).calls = g.calls.map fun r => if r.num = n then f r else r := rfl
@[simp] theorem Grid.onCall_crews (n : Nat) (f : Call → Call) : (g.onCall n f).crews = g.crews := rfl
@[simp] theorem Grid.onCall_isos (n : Nat) (f : Call → Call) : (g.onCall n f).isos = g.isos := rfl
@[simp] theorem Grid.onCall_screens (n : Nat) (f : Call → Call) : (g.onCall n f).screens = g.screens := rfl
@[simp] theorem Grid.onCall_lastCall (n : Nat) (f : Call → Call) : (g.onCall n f).lastCall = g.lastCall := rfl
@[simp] theorem Grid.onCall_arrival (n : Nat) (f : Call → Call) : (g.onCall n f).arrival = g.arrival := rfl
@[simp] theorem Grid.onCall_lastIso (n : Nat) (f : Call → Call) : (g.onCall n f).lastIso = g.lastIso := rfl

/-! ### onCrew -/

@[simp] theorem Grid.onCrew_engine (n : Nat) (f : Crew → Crew) : (g.onCrew n f).engine = g.engine := rfl
@[simp] theorem Grid.onCrew_segs (n : Nat) (f : Crew → Crew) : (g.onCrew n f).segs = g.segs := rfl
@[simp] theorem Grid.onCrew_valves (n : Nat) (f : Crew → Crew) : (g.onCrew n f).valves = g.valves := rfl
@[simp] theorem Grid.onCrew_points (n : Nat) (f : Crew → Crew) : (g.onCrew n f).points = g.points := rfl
@[simp] theorem Grid.onCrew_feeds (n : Nat) (f : Crew → Crew) : (g.onCrew n f).feeds = g.feeds := rfl
@[simp] theorem Grid.onCrew_calls (n : Nat) (f : Crew → Crew) : (g.onCrew n f).calls = g.calls := rfl
@[simp] theorem Grid.onCrew_crews (n : Nat) (f : Crew → Crew) :
    (g.onCrew n f).crews = g.crews.map fun r => if r.num = n then f r else r := rfl
@[simp] theorem Grid.onCrew_isos (n : Nat) (f : Crew → Crew) : (g.onCrew n f).isos = g.isos := rfl
@[simp] theorem Grid.onCrew_screens (n : Nat) (f : Crew → Crew) : (g.onCrew n f).screens = g.screens := rfl
@[simp] theorem Grid.onCrew_lastCall (n : Nat) (f : Crew → Crew) : (g.onCrew n f).lastCall = g.lastCall := rfl
@[simp] theorem Grid.onCrew_arrival (n : Nat) (f : Crew → Crew) : (g.onCrew n f).arrival = g.arrival := rfl
@[simp] theorem Grid.onCrew_lastIso (n : Nat) (f : Crew → Crew) : (g.onCrew n f).lastIso = g.lastIso := rfl

/-! ### onIso -/

@[simp] theorem Grid.onIso_engine (n : Nat) (f : Isolation → Isolation) : (g.onIso n f).engine = g.engine := rfl
@[simp] theorem Grid.onIso_segs (n : Nat) (f : Isolation → Isolation) : (g.onIso n f).segs = g.segs := rfl
@[simp] theorem Grid.onIso_valves (n : Nat) (f : Isolation → Isolation) : (g.onIso n f).valves = g.valves := rfl
@[simp] theorem Grid.onIso_points (n : Nat) (f : Isolation → Isolation) : (g.onIso n f).points = g.points := rfl
@[simp] theorem Grid.onIso_feeds (n : Nat) (f : Isolation → Isolation) : (g.onIso n f).feeds = g.feeds := rfl
@[simp] theorem Grid.onIso_calls (n : Nat) (f : Isolation → Isolation) : (g.onIso n f).calls = g.calls := rfl
@[simp] theorem Grid.onIso_crews (n : Nat) (f : Isolation → Isolation) : (g.onIso n f).crews = g.crews := rfl
@[simp] theorem Grid.onIso_isos (n : Nat) (f : Isolation → Isolation) :
    (g.onIso n f).isos = g.isos.map fun r => if r.num = n then f r else r := rfl
@[simp] theorem Grid.onIso_screens (n : Nat) (f : Isolation → Isolation) : (g.onIso n f).screens = g.screens := rfl
@[simp] theorem Grid.onIso_lastCall (n : Nat) (f : Isolation → Isolation) : (g.onIso n f).lastCall = g.lastCall := rfl
@[simp] theorem Grid.onIso_arrival (n : Nat) (f : Isolation → Isolation) : (g.onIso n f).arrival = g.arrival := rfl
@[simp] theorem Grid.onIso_lastIso (n : Nat) (f : Isolation → Isolation) : (g.onIso n f).lastIso = g.lastIso := rfl

/-! ### onScreen -/

@[simp] theorem Grid.onScreen_engine (n : Nat) (f : Screen → Screen) : (g.onScreen n f).engine = g.engine := rfl
@[simp] theorem Grid.onScreen_segs (n : Nat) (f : Screen → Screen) : (g.onScreen n f).segs = g.segs := rfl
@[simp] theorem Grid.onScreen_valves (n : Nat) (f : Screen → Screen) : (g.onScreen n f).valves = g.valves := rfl
@[simp] theorem Grid.onScreen_points (n : Nat) (f : Screen → Screen) : (g.onScreen n f).points = g.points := rfl
@[simp] theorem Grid.onScreen_feeds (n : Nat) (f : Screen → Screen) : (g.onScreen n f).feeds = g.feeds := rfl
@[simp] theorem Grid.onScreen_calls (n : Nat) (f : Screen → Screen) : (g.onScreen n f).calls = g.calls := rfl
@[simp] theorem Grid.onScreen_crews (n : Nat) (f : Screen → Screen) : (g.onScreen n f).crews = g.crews := rfl
@[simp] theorem Grid.onScreen_isos (n : Nat) (f : Screen → Screen) : (g.onScreen n f).isos = g.isos := rfl
@[simp] theorem Grid.onScreen_screens (n : Nat) (f : Screen → Screen) :
    (g.onScreen n f).screens = g.screens.map fun r => if r.num = n then f r else r := rfl
@[simp] theorem Grid.onScreen_lastCall (n : Nat) (f : Screen → Screen) : (g.onScreen n f).lastCall = g.lastCall := rfl
@[simp] theorem Grid.onScreen_arrival (n : Nat) (f : Screen → Screen) : (g.onScreen n f).arrival = g.arrival := rfl
@[simp] theorem Grid.onScreen_lastIso (n : Nat) (f : Screen → Screen) : (g.onScreen n f).lastIso = g.lastIso := rfl

/-! ### Work -/

@[simp] theorem Work.on_grid (w : Work) (f : Grid → Grid) : (w.on f).grid = f w.grid := rfl
@[simp] theorem Work.on_seen (w : Work) (f : Grid → Grid) : (w.on f).seen = w.seen := rfl
@[simp] theorem Work.on_acts (w : Work) (f : Grid → Grid) : (w.on f).acts = w.acts := rfl
@[simp] theorem Work.on_causes (w : Work) (f : Grid → Grid) : (w.on f).causes = w.causes := rfl
@[simp] theorem Work.on_regained (w : Work) (f : Grid → Grid) : (w.on f).regained = w.regained := rfl
@[simp] theorem Work.on_adopted (w : Work) (f : Grid → Grid) : (w.on f).adopted = w.adopted := rfl

@[simp] theorem Work.post_grid (w : Work) (k : Change) (n : Nat) (c : Urgency) : (w.post k n c).grid = w.grid := rfl
@[simp] theorem Work.post_seen (w : Work) (k : Change) (n : Nat) (c : Urgency) : (w.post k n c).seen = w.seen := rfl
@[simp] theorem Work.post_acts (w : Work) (k : Change) (n : Nat) (c : Urgency) : (w.post k n c).acts = w.acts ++ [.post k n c] := rfl
@[simp] theorem Work.post_causes (w : Work) (k : Change) (n : Nat) (c : Urgency) : (w.post k n c).causes = w.causes := rfl
@[simp] theorem Work.post_regained (w : Work) (k : Change) (n : Nat) (c : Urgency) : (w.post k n c).regained = w.regained := rfl
@[simp] theorem Work.post_adopted (w : Work) (k : Change) (n : Nat) (c : Urgency) : (w.post k n c).adopted = w.adopted := rfl

@[simp] theorem Work.reach_grid (w : Work) (n : Nat) (c : TreeCause) : (w.reach n c).grid = w.grid := rfl
@[simp] theorem Work.reach_seen (w : Work) (n : Nat) (c : TreeCause) : (w.reach n c).seen = w.seen := rfl
@[simp] theorem Work.reach_acts (w : Work) (n : Nat) (c : TreeCause) : (w.reach n c).acts = w.acts := rfl
@[simp] theorem Work.reach_causes (w : Work) (n : Nat) (c : TreeCause) : (w.reach n c).causes = w.causes ++ [(n, c)] := rfl
@[simp] theorem Work.reach_regained (w : Work) (n : Nat) (c : TreeCause) : (w.reach n c).regained = w.regained := rfl
@[simp] theorem Work.reach_adopted (w : Work) (n : Nat) (c : TreeCause) : (w.reach n c).adopted = w.adopted := rfl

@[simp] theorem Work.start_grid : (Work.start g).grid = g := rfl
@[simp] theorem Work.start_seen : (Work.start g).seen = g := rfl
@[simp] theorem Work.start_acts : (Work.start g).acts = [] := rfl
@[simp] theorem Work.start_causes : (Work.start g).causes = [] := rfl
@[simp] theorem Work.start_regained : (Work.start g).regained = [] := rfl
@[simp] theorem Work.start_adopted : (Work.start g).adopted = false := rfl
@[simp] theorem Work.noted_grid (w : Work) : w.noted.grid = w.grid := rfl
@[simp] theorem Work.noted_seen (w : Work) : w.noted.seen = w.grid := rfl
@[simp] theorem Work.noted_acts (w : Work) : w.noted.acts = w.acts ++ diffActs w.seen w.grid := rfl
@[simp] theorem Work.noted_causes (w : Work) : w.noted.causes = w.causes := rfl
@[simp] theorem Work.noted_regained (w : Work) : w.noted.regained = w.regained := rfl
@[simp] theorem Work.noted_adopted (w : Work) : w.noted.adopted = w.adopted := rfl

@[simp] theorem Work.settled_grid (w : Work) : w.settled.grid = w.grid.recount.regrade := rfl
@[simp] theorem Work.settled_seen (w : Work) : w.settled.seen = w.grid.recount.regrade := rfl
@[simp] theorem Work.settled_acts (w : Work) : w.settled.acts = w.acts ++ diffActs w.seen w.grid.recount.regrade := rfl
@[simp] theorem Work.settled_causes (w : Work) : w.settled.causes = w.causes := rfl
@[simp] theorem Work.settled_regained (w : Work) : w.settled.regained = w.regained := rfl
@[simp] theorem Work.settled_adopted (w : Work) : w.settled.adopted = w.adopted := rfl

/-! ### The machine -/

@[simp] theorem State.withLink_grid (l : Link) : (s.withLink l).grid = s.grid := rfl
@[simp] theorem State.withLink_link (l : Link) : (s.withLink l).link = l := rfl
@[simp] theorem State.withLink_pins (l : Link) : (s.withLink l).pins = s.pins.follow l := rfl
@[simp] theorem State.withLink_sent (l : Link) : (s.withLink l).sent = s.sent := rfl
@[simp] theorem State.withLink_pending (l : Link) : (s.withLink l).pending = s.pending := rfl

@[simp] theorem Pins.follow_txd (p : Pins) (l : Link) : (p.follow l).txd = p.txd := rfl
@[simp] theorem Pins.follow_note (p : Pins) (l : Link) :
    (p.follow l).note = !(l.urgent.isEmpty && l.routine.isEmpty) := rfl
@[simp] theorem Pins.follow_alert (p : Pins) (l : Link) : (p.follow l).alert = !l.urgent.isEmpty := rfl

@[simp] theorem State.act_grid (a : Act) : (s.act a).grid = s.grid := rfl
@[simp] theorem State.act_link (a : Act) : (s.act a).link = s.link.act a := rfl
@[simp] theorem State.act_pins (a : Act) : (s.act a).pins = s.pins.follow (s.link.act a) := rfl
@[simp] theorem State.act_sent (a : Act) : (s.act a).sent = s.sent := rfl
@[simp] theorem State.act_pending (a : Act) : (s.act a).pending = s.pending := rfl

@[simp] theorem State.replied_grid (f : Frame) (r : Reply) : (s.replied f r).grid = s.grid := rfl
@[simp] theorem State.replied_pins (f : Frame) (r : Reply) : (s.replied f r).pins = s.pins := rfl
@[simp] theorem State.replied_sent (f : Frame) (r : Reply) : (s.replied f r).sent = s.sent := rfl
@[simp] theorem State.replied_pending (f : Frame) (r : Reply) : (s.replied f r).pending = s.pending := rfl
@[simp] theorem State.replied_rx (f : Frame) (r : Reply) : (s.replied f r).link.rx = s.link.rx := rfl
@[simp] theorem State.replied_holding (f : Frame) (r : Reply) : (s.replied f r).link.holding = s.link.holding := rfl
@[simp] theorem State.replied_urgent (f : Frame) (r : Reply) : (s.replied f r).link.urgent = s.link.urgent := rfl
@[simp] theorem State.replied_routine (f : Frame) (r : Reply) : (s.replied f r).link.routine = s.link.routine := rfl
@[simp] theorem State.replied_rate (f : Frame) (r : Reply) : (s.replied f r).link.rate = s.link.rate := rfl
@[simp] theorem State.replied_transmit (f : Frame) (r : Reply) :
    (s.replied f r).link.transmit = s.link.transmit ++ [replyFrame f r] := rfl

/-! A taken request leaves the holding space alone changed. -/

@[simp] theorem State.takeHeld_grid (f : Frame) : (s.takeHeld f).grid = s.grid := by
  unfold State.takeHeld; split <;> (try split) <;> rfl
@[simp] theorem State.takeHeld_pins (f : Frame) : (s.takeHeld f).pins = s.pins := by
  unfold State.takeHeld; split <;> (try split) <;> rfl
@[simp] theorem State.takeHeld_sent (f : Frame) : (s.takeHeld f).sent = s.sent := by
  unfold State.takeHeld; split <;> (try split) <;> rfl
@[simp] theorem State.takeHeld_pending (f : Frame) : (s.takeHeld f).pending = s.pending := by
  unfold State.takeHeld; split <;> (try split) <;> rfl
@[simp] theorem State.takeHeld_rx (f : Frame) : (s.takeHeld f).link.rx = s.link.rx := by
  unfold State.takeHeld; split <;> (try split) <;> rfl
@[simp] theorem State.takeHeld_transmit (f : Frame) : (s.takeHeld f).link.transmit = s.link.transmit := by
  unfold State.takeHeld; split <;> (try split) <;> rfl
@[simp] theorem State.takeHeld_urgent (f : Frame) : (s.takeHeld f).link.urgent = s.link.urgent := by
  unfold State.takeHeld; split <;> (try split) <;> rfl
@[simp] theorem State.takeHeld_routine (f : Frame) : (s.takeHeld f).link.routine = s.link.routine := by
  unfold State.takeHeld; split <;> (try split) <;> rfl
@[simp] theorem State.takeHeld_rate (f : Frame) : (s.takeHeld f).link.rate = s.link.rate := by
  unfold State.takeHeld; split <;> (try split) <;> rfl

end Sys2Proof.Machine
end

