-- ==== Sys2Proof/Laws/Notices.lean ====
section
/-! SUPPORT. What posting, and every other act on the notice list, can do: the list stays sound, the rest of the link
stands, and the two lines follow. -/
namespace Sys2Proof.Machine

/-! ### Lists of entries -/

theorem addKinds_refs (r : Ref) (k : BitVec 16) (l : List Notice) :
    (addKinds r k l).map (fun e => e.ref) = l.map (fun e => e.ref) := by
  unfold addKinds
  rw [List.map_map]
  refine List.map_congr_left fun e _ => ?_
  simp only [Function.comp]
  split <;> rfl

theorem setKinds_refs (r : Ref) (k : BitVec 16) (l : List Notice) :
    (setKinds r k l).map (fun e => e.ref) = l.map (fun e => e.ref) := by
  unfold setKinds
  rw [List.map_map]
  refine List.map_congr_left fun e _ => ?_
  simp only [Function.comp]
  split <;> rfl

theorem or_ne_zero_of_left {a b : BitVec 16} (h : a ≠ 0) : a ||| b ≠ 0 := by
  intro hz
  apply h
  apply BitVec.eq_of_getLsbD_eq
  intro i hi
  have := congrArg (fun x : BitVec 16 => x.getLsbD i) hz
  simp at this
  simp [this.1]

theorem or_ne_zero_of_right {a b : BitVec 16} (h : b ≠ 0) : a ||| b ≠ 0 := by
  rw [BitVec.or_comm]
  exact or_ne_zero_of_left h

theorem addKinds_kinds {r : Ref} {k : BitVec 16} {l : List Notice} (h : ∀ e ∈ l, e.changes ≠ 0) :
    ∀ e ∈ addKinds r k l, e.changes ≠ 0 := by
  intro e he
  obtain ⟨d, hd, rfl⟩ := List.mem_map.mp he
  split
  · exact or_ne_zero_of_left (h d hd)
  · exact h d hd

theorem clearKinds_sublist (r : Ref) (k : BitVec 16) (l : List Notice) :
    ((clearKinds r k l).map fun e => e.ref).Sublist (l.map fun e => e.ref) := by
  unfold clearKinds
  have hmap : ((l.map fun e => if e.ref = r then { e with changes := e.changes &&& ~~~k } else e).map
      fun e => e.ref) = l.map fun e => e.ref := by
    rw [List.map_map]
    refine List.map_congr_left fun e _ => ?_
    simp only [Function.comp]
    split <;> rfl
  rw [← hmap]
  exact List.Sublist.map _ List.filter_sublist

theorem clearKinds_kinds (r : Ref) (k : BitVec 16) (l : List Notice) : ∀ e ∈ clearKinds r k l, e.changes ≠ 0 := by
  intro e he
  simpa using (List.mem_filter.mp he).2

theorem mem_of_noticed {r : Ref} {l : List Notice} (h : noticed r l = true) : r ∈ l.map fun e => e.ref := by
  obtain ⟨e, he, hr⟩ := List.any_eq_true.mp h
  exact List.mem_map.mpr ⟨e, he, by simpa using hr⟩

theorem not_mem_of_not_noticed {r : Ref} {l : List Notice} (h : noticed r l = false) :
    r ∉ l.map fun e => e.ref := by
  intro hm
  obtain ⟨e, he, rfl⟩ := List.mem_map.mp hm
  have : noticed e.ref l = true := List.any_eq_true.mpr ⟨e, he, by simp⟩
  simp [h] at this

theorem removeEntry_not_mem (r : Ref) (l : List Notice) : r ∉ (removeEntry r l).map fun e => e.ref := by
  intro hm
  obtain ⟨e, he, hr⟩ := List.mem_map.mp hm
  have := (List.mem_filter.mp he).2
  simp [hr] at this

/-! ### Posting -/

theorem Change.mask_ne_zero (k : Change) : k.mask ≠ 0 := by cases k <;> decide

/-- Posting keeps the list sound, provided it posts some kind. -/
theorem Link.post_sound {l : Link} (h : l.NoticesSound) (r : Ref) {k : BitVec 16} (hk : k ≠ 0) (c : Urgency) :
    (l.post r k c).NoticesSound := by
  obtain ⟨ho, hc⟩ := h
  have hu : ∀ e ∈ l.urgent, e.changes ≠ 0 := fun e he => hc e (List.mem_append_left _ he)
  have hr : ∀ e ∈ l.routine, e.changes ≠ 0 := fun e he => hc e (List.mem_append_right _ he)
  unfold Link.post
  by_cases hin : noticed r l.urgent = true
  · rw [if_pos hin]
    refine ⟨by simpa [addKinds_refs, List.map_append] using ho, fun e he => ?_⟩
    rcases List.mem_append.mp he with he | he
    · exact addKinds_kinds hu e he
    · exact hr e he
  · rw [if_neg hin]
    have hin' : noticed r l.urgent = false := by simpa using hin
    cases c with
    | urgent =>
      refine ⟨?_, fun e he => ?_⟩
      · have hsub : ((removeEntry r l.routine).map fun e => e.ref).Sublist (l.routine.map fun e => e.ref) :=
          List.Sublist.map _ List.filter_sublist
        have hnd := ho
        rw [List.map_append, List.nodup_append] at hnd
        obtain ⟨hnu, hnr, hdis⟩ := hnd
        simp only [List.map_append, List.map_cons, List.map_nil]
        rw [List.append_assoc, List.nodup_append]
        refine ⟨hnu, ?_, ?_⟩
        · simp only [List.singleton_append, List.nodup_cons]
          exact ⟨removeEntry_not_mem r l.routine, hnr.sublist hsub⟩
        · intro a ha b hb
          rcases List.mem_append.mp hb with hb | hb
          · rw [List.mem_singleton] at hb
            subst hb
            exact fun heq => not_mem_of_not_noticed hin' (heq ▸ ha)
          · exact hdis a ha b (hsub.subset hb)
      · rcases List.mem_append.mp he with he | he
        · rcases List.mem_append.mp he with he | he
          · exact hu e he
          · rw [List.mem_singleton] at he
            subst he
            exact or_ne_zero_of_right hk
        · exact hr e (List.mem_filter.mp he).1
    | routine =>
      by_cases hrt : noticed r l.routine = true
      · simp only [hrt, if_true]
        refine ⟨by simpa [addKinds_refs, List.map_append] using ho, fun e he => ?_⟩
        rcases List.mem_append.mp he with he | he
        · exact hu e he
        · exact addKinds_kinds hr e he
      · have hrt' : noticed r l.routine = false := by simpa using hrt
        simp only [hrt', Bool.false_eq_true, if_false]
        refine ⟨?_, fun e he => ?_⟩
        · have hnot : r ∉ (l.urgent ++ l.routine).map fun e => e.ref := by
            rw [List.map_append, List.mem_append]
            rintro (hm | hm)
            · exact not_mem_of_not_noticed hin' hm
            · exact not_mem_of_not_noticed hrt' hm
          simp only [List.map_append, List.map_cons, List.map_nil] at ho hnot ⊢
          rw [← List.append_assoc, List.nodup_append]
          refine ⟨ho, by simp, ?_⟩
          intro a ha b hb
          rw [List.mem_singleton] at hb
          subst hb
          exact fun heq => hnot (heq ▸ ha)
        · rcases List.mem_append.mp he with he | he
          · exact hu e he
          · rcases List.mem_append.mp he with he | he
            · exact hr e he
            · rw [List.mem_singleton] at he
              subst he
              exact hk

/-- Taking sublists of both classes keeps the list sound. -/
theorem Link.sound_of_sublists {l : Link} (h : l.NoticesSound) {u r : List Notice}
    (hu : (u.map fun e => e.ref).Sublist (l.urgent.map fun e => e.ref))
    (hr : (r.map fun e => e.ref).Sublist (l.routine.map fun e => e.ref))
    (hk : ∀ e ∈ u ++ r, e.changes ≠ 0) : ({ l with urgent := u, routine := r } : Link).NoticesSound := by
  refine ⟨?_, hk⟩
  have ho := h.once
  rw [List.map_append] at ho ⊢
  exact ho.sublist (hu.append hr)

/-- Every act keeps the notice list sound. -/
theorem Link.act_sound {l : Link} (h : l.NoticesSound) (a : Act) : (l.act a).NoticesSound := by
  cases a with
  | post k n c => exact Link.post_sound h _ k.mask_ne_zero c
  | drop r =>
    refine Link.sound_of_sublists h (List.Sublist.map _ List.filter_sublist) (List.Sublist.map _ List.filter_sublist)
      fun e he => h.kinds e ?_
    rcases List.mem_append.mp he with he | he
    · exact List.mem_append_left _ (List.mem_filter.mp he).1
    · exact List.mem_append_right _ (List.mem_filter.mp he).1
  | unmark r k =>
    refine Link.sound_of_sublists h (clearKinds_sublist r k _) (clearKinds_sublist r k _) fun e he => ?_
    rcases List.mem_append.mp he with he | he
    · exact clearKinds_kinds r k _ e he
    · exact clearKinds_kinds r k _ e he

/-! ### What an act leaves alone -/

@[simp] theorem Link.post_rx (l : Link) (r : Ref) (k : BitVec 16) (c : Urgency) : (l.post r k c).rx = l.rx := by
  unfold Link.post; repeat' split
  all_goals rfl
@[simp] theorem Link.post_holding (l : Link) (r : Ref) (k : BitVec 16) (c : Urgency) :
    (l.post r k c).holding = l.holding := by
  unfold Link.post; repeat' split
  all_goals rfl
@[simp] theorem Link.post_transmit (l : Link) (r : Ref) (k : BitVec 16) (c : Urgency) :
    (l.post r k c).transmit = l.transmit := by
  unfold Link.post; repeat' split
  all_goals rfl
@[simp] theorem Link.post_rate (l : Link) (r : Ref) (k : BitVec 16) (c : Urgency) : (l.post r k c).rate = l.rate := by
  unfold Link.post; repeat' split
  all_goals rfl

@[simp] theorem Link.act_rx (l : Link) (a : Act) : (l.act a).rx = l.rx := by cases a <;> simp [Link.act]
@[simp] theorem Link.act_holding (l : Link) (a : Act) : (l.act a).holding = l.holding := by cases a <;> simp [Link.act]
@[simp] theorem Link.act_transmit (l : Link) (a : Act) : (l.act a).transmit = l.transmit := by
  cases a <;> simp [Link.act]
@[simp] theorem Link.act_rate (l : Link) (a : Act) : (l.act a).rate = l.rate := by cases a <;> simp [Link.act]

/-! ### The end of an event -/

/-- An event that posts nothing leaves the machine as it is but for its records. -/
@[simp] theorem State.conclude_nil (g : Grid) (s : State) : s.conclude g [] = { s with grid := g } := rfl

theorem State.conclude_cons (g : Grid) (a : Act) (as : List Act) (s : State) :
    s.conclude g (a :: as) = (({ s with grid := g } : State).act a).conclude g as := rfl

/-- A fold of acts changes nothing but the notice list and the two lines. -/
theorem foldl_act_frame (as : List Act) (s : State) :
    (as.foldl State.act s).grid = s.grid ∧ (as.foldl State.act s).sent = s.sent ∧
      (as.foldl State.act s).pending = s.pending ∧ (as.foldl State.act s).link.rx = s.link.rx ∧
      (as.foldl State.act s).link.holding = s.link.holding ∧
      (as.foldl State.act s).link.transmit = s.link.transmit ∧ (as.foldl State.act s).link.rate = s.link.rate ∧
      (as.foldl State.act s).pins.txd = s.pins.txd := by
  induction as generalizing s with
  | nil => simp
  | cons a as ih =>
    obtain ⟨h1, h2, h3, h4, h5, h6, h7, h8⟩ := ih (s.act a)
    simp only [List.foldl_cons, h1, h2, h3, h4, h5, h6, h7, h8]
    simp

@[simp] theorem State.conclude_grid (g : Grid) (as : List Act) (s : State) : (s.conclude g as).grid = g :=
  (foldl_act_frame as _).1
@[simp] theorem State.conclude_sent (g : Grid) (as : List Act) (s : State) : (s.conclude g as).sent = s.sent :=
  (foldl_act_frame as _).2.1
@[simp] theorem State.conclude_pending (g : Grid) (as : List Act) (s : State) :
    (s.conclude g as).pending = s.pending := (foldl_act_frame as _).2.2.1
@[simp] theorem State.conclude_rx (g : Grid) (as : List Act) (s : State) :
    (s.conclude g as).link.rx = s.link.rx := (foldl_act_frame as _).2.2.2.1
@[simp] theorem State.conclude_holding (g : Grid) (as : List Act) (s : State) :
    (s.conclude g as).link.holding = s.link.holding := (foldl_act_frame as _).2.2.2.2.1
@[simp] theorem State.conclude_transmit (g : Grid) (as : List Act) (s : State) :
    (s.conclude g as).link.transmit = s.link.transmit := (foldl_act_frame as _).2.2.2.2.2.1
@[simp] theorem State.conclude_rate (g : Grid) (as : List Act) (s : State) :
    (s.conclude g as).link.rate = s.link.rate := (foldl_act_frame as _).2.2.2.2.2.2.1
@[simp] theorem State.conclude_txd (g : Grid) (as : List Act) (s : State) :
    (s.conclude g as).pins.txd = s.pins.txd := (foldl_act_frame as _).2.2.2.2.2.2.2

end Sys2Proof.Machine
end

