-- ==== Sys2Proof/Laws/Answers.lean ====
section
/-! SUPPORT. What answering a request at the records can do, field by field. -/
namespace Sys2Proof.Machine

/-! ### Taking the held request -/

/-- The holding space loses its head when that is the request taken, and nothing else. -/
theorem State.takeHeld_holding (s : State) (f : Frame) :
    (s.takeHeld f).link.holding = if s.link.holding.head? = some f then s.link.holding.tail else s.link.holding := by
  unfold State.takeHeld
  split
  · next h => simp [h]
  · next h rest hh =>
    simp only [hh, List.head?_cons, Option.some.injEq, List.tail_cons]
    split <;> simp_all

/-- A state that holds no request is not changed by the taking. -/
theorem State.takeHeld_of_empty {s : State} (h : s.link.holding = []) (f : Frame) : s.takeHeld f = s := by
  simp [State.takeHeld, h]

/-! ### Answering -/

theorem answer_of_frame {i : Instr} {f : Frame} (h : frameOf i = some f) (k : State → State × Reply) (s : State) :
    answer i k s = answerFrame f k s := by simp [answer, h]

theorem atGrid_state (h : Grid → Served) (s : State) :
    (atGrid h s).1 = s.conclude (h s.grid).grid (h s.grid).acts := rfl
theorem atGrid_reply (h : Grid → Served) (s : State) : (atGrid h s).2 = (h s.grid).reply := rfl

@[simp] theorem answerFrame_grid (f : Frame) (h : Grid → Served) (s : State) :
    (answerFrame f (atGrid h) s).grid = (h s.grid).grid := by simp [answerFrame, atGrid]
@[simp] theorem answerFrame_sent (f : Frame) (h : Grid → Served) (s : State) :
    (answerFrame f (atGrid h) s).sent = s.sent := by simp [answerFrame, atGrid]
@[simp] theorem answerFrame_pending (f : Frame) (h : Grid → Served) (s : State) :
    (answerFrame f (atGrid h) s).pending = s.pending := by simp [answerFrame, atGrid]
@[simp] theorem answerFrame_rx (f : Frame) (h : Grid → Served) (s : State) :
    (answerFrame f (atGrid h) s).link.rx = s.link.rx := by simp [answerFrame, atGrid]
@[simp] theorem answerFrame_rate (f : Frame) (h : Grid → Served) (s : State) :
    (answerFrame f (atGrid h) s).link.rate = s.link.rate := by simp [answerFrame, atGrid]
@[simp] theorem answerFrame_holding (f : Frame) (h : Grid → Served) (s : State) :
    (answerFrame f (atGrid h) s).link.holding = (s.takeHeld f).link.holding := by simp [answerFrame, atGrid]
@[simp] theorem answerFrame_transmit (f : Frame) (h : Grid → Served) (s : State) :
    (answerFrame f (atGrid h) s).link.transmit = s.link.transmit ++ [replyFrame f (h s.grid).reply] := by
  simp [answerFrame, atGrid]

/-- A request that changes no record and posts nothing changes nothing but the holding space and the transmit order. -/
theorem answerFrame_of_unchanged (f : Frame) (h : Grid → Served) (s : State) (hg : (h s.grid).grid = s.grid)
    (ha : (h s.grid).acts = []) : answerFrame f (atGrid h) s = (s.takeHeld f).replied f (h s.grid).reply := by
  have hs : { s.takeHeld f with grid := s.grid } = s.takeHeld f := by rw [← State.takeHeld_grid s f]
  simp only [answerFrame, atGrid, State.takeHeld_grid, hg, ha, State.conclude_nil]
  rw [hs]

/-- A refused request changes no record. -/
@[simp] theorem refuse_grid (g : Grid) (c : Code) : (refuse g c).grid = g := rfl
@[simp] theorem refuse_acts (g : Grid) (c : Code) : (refuse g c).acts = [] := rfl
@[simp] theorem refuse_reply (g : Grid) (c : Code) : (refuse g c).reply = ⟨c, []⟩ := rfl
@[simp] theorem tell_grid (g : Grid) (c : Code) (b : List Byte) : (tell g c b).grid = g := rfl
@[simp] theorem tell_acts (g : Grid) (c : Code) (b : List Byte) : (tell g c b).acts = [] := rfl
@[simp] theorem tell_reply (g : Grid) (c : Code) (b : List Byte) : (tell g c b).reply = ⟨c, b⟩ := rfl

@[simp] theorem answered_grid (before : Grid) (c : Code) (b : Grid → List Byte) (w : Work) :
    (w.answered before c b).grid = w.finished before := rfl
@[simp] theorem answered_acts (before : Grid) (c : Code) (b : Grid → List Byte) (w : Work) :
    (w.answered before c b).acts = w.posted before := rfl
@[simp] theorem answered_reply (before : Grid) (c : Code) (b : Grid → List Byte) (w : Work) :
    (w.answered before c b).reply = ⟨c, b (w.finished before)⟩ := rfl

@[simp] theorem happens_grid (s : State) (w : Work) : (s.happens w).grid = w.finished s.grid := by
  simp [State.happens]

end Sys2Proof.Machine
end

