-- ==== Sys2Proof/Laws/Events.lean ====
section
/-! SUPPORT. What the end of an event leaves alone: outside an adoption it touches no valve, point, isolation, static
part or counter; outside VERIFYING not the engine either. -/
namespace Sys2Proof.Machine

/-! ### Resolution and recomputation -/

@[simp] theorem Work.resolve_engine (t : Trigger) (w : Work) : (w.resolve t).grid.engine = w.grid.engine := rfl
@[simp] theorem Work.resolve_valves (t : Trigger) (w : Work) : (w.resolve t).grid.valves = w.grid.valves := rfl
@[simp] theorem Work.resolve_points (t : Trigger) (w : Work) : (w.resolve t).grid.points = w.grid.points := rfl
@[simp] theorem Work.resolve_feeds (t : Trigger) (w : Work) : (w.resolve t).grid.feeds = w.grid.feeds := rfl
@[simp] theorem Work.resolve_calls (t : Trigger) (w : Work) : (w.resolve t).grid.calls = w.grid.calls := rfl
@[simp] theorem Work.resolve_crews (t : Trigger) (w : Work) : (w.resolve t).grid.crews = w.grid.crews := rfl
@[simp] theorem Work.resolve_isos (t : Trigger) (w : Work) : (w.resolve t).grid.isos = w.grid.isos := rfl
@[simp] theorem Work.resolve_screens (t : Trigger) (w : Work) : (w.resolve t).grid.screens = w.grid.screens := rfl
@[simp] theorem Work.resolve_lastCall (t : Trigger) (w : Work) : (w.resolve t).grid.lastCall = w.grid.lastCall := rfl
@[simp] theorem Work.resolve_arrival (t : Trigger) (w : Work) : (w.resolve t).grid.arrival = w.grid.arrival := rfl
@[simp] theorem Work.resolve_lastIso (t : Trigger) (w : Work) : (w.resolve t).grid.lastIso = w.grid.lastIso := rfl

/-- All of the records but segments, feeds, calls, crews and screens. -/
structure Grid.Fixed (g h : Grid) : Prop where
  engine : g.engine = h.engine
  valves : g.valves = h.valves
  points : g.points = h.points
  isos : g.isos = h.isos
  lastCall : g.lastCall = h.lastCall
  arrival : g.arrival = h.arrival
  lastIso : g.lastIso = h.lastIso

theorem Grid.Fixed.refl (g : Grid) : g.Fixed g := ⟨rfl, rfl, rfl, rfl, rfl, rfl, rfl⟩

theorem Grid.Fixed.trans {a b c : Grid} (h : a.Fixed b) (k : b.Fixed c) : a.Fixed c :=
  ⟨h.engine.trans k.engine, h.valves.trans k.valves, h.points.trans k.points, h.isos.trans k.isos,
    h.lastCall.trans k.lastCall, h.arrival.trans k.arrival, h.lastIso.trans k.lastIso⟩

/-! ### What the restoration unit and a resolution keep of a segment -/

theorem Segment.endOutage_keys (net : Sec) (n : Nat) (s : Segment) :
    ((s.endOutage net n).num, (s.endOutage net n).st, (s.endOutage net n).unrelit) = (s.num, s.st, s.unrelit) := by
  unfold Segment.endOutage
  split <;> rfl

theorem Segment.enterRelighting_keys (net : Sec) (p : Outage) (s : Segment) :
    ((s.enterRelighting net p).num, (s.enterRelighting net p).st, (s.enterRelighting net p).unrelit) =
      (s.num, s.st, s.unrelit) := by
  unfold Segment.enterRelighting
  dsimp only
  split
  · exact Segment.endOutage_keys _ _ _
  · rfl

/-- The restoration unit's part of a recomputation leaves number, static part and unrelit count. -/
theorem Segment.stableUpdate_keys (k : Nat) (net : Sec) (b : Bool) (s : Segment) :
    ((s.stableUpdate k net b).num, (s.stableUpdate k net b).st, (s.stableUpdate k net b).unrelit) =
      (s.num, s.st, s.unrelit) := by
  unfold Segment.stableUpdate
  dsimp only
  repeat' split
  all_goals first
    | rfl
    | exact Segment.enterRelighting_keys _ _ _

/-- A resolution leaves number, static part and unrelit count of a segment. -/
theorem Segment.resolved_keys (net : Sec) (k : Nat) (c : OutageCause) (sup : Supply) (m : Bool) (s : Segment) :
    ((s.resolved net k c sup m).num, (s.resolved net k c sup m).st, (s.resolved net k c sup m).unrelit) =
      (s.num, s.st, s.unrelit) := by
  unfold Segment.resolved Segment.regainSupply Segment.loseSupply
  dsimp only
  repeat' split
  all_goals rfl

/-! ### The stages of an event -/

/-- `h` comes from `g` by stages of an event that bring no adoption and complete no verification: but for the grade of
calls, supply, estimate, outage part, counts and vector of segments, and the tree inputs of feeds, every record stands. -/
structure Grid.Trails (h g : Grid) : Prop where
  fixed : h.Fixed g
  crews : h.crews = g.crews
  screens : h.screens = g.screens
  calls : (h.calls.map fun r => { r with eff := 0 }) = g.calls.map fun r => { r with eff := 0 }
  segs : (h.segs.map fun r => (r.num, r.st, r.unrelit)) = g.segs.map fun r => (r.num, r.st, r.unrelit)
  feeds : (h.feeds.map fun r => { r with treeInput := none }) = g.feeds.map fun r => { r with treeInput := none }

theorem Grid.Trails.refl (g : Grid) : g.Trails g := ⟨.refl g, rfl, rfl, rfl, rfl, rfl⟩

theorem Grid.Trails.trans {a b c : Grid} (h : a.Trails b) (k : b.Trails c) : a.Trails c :=
  ⟨h.fixed.trans k.fixed, h.crews.trans k.crews, h.screens.trans k.screens, h.calls.trans k.calls,
    h.segs.trans k.segs, h.feeds.trans k.feeds⟩

theorem Grid.regrade_calls_eff (g : Grid) :
    (g.regrade.calls.map fun r => { r with eff := 0 }) = g.calls.map fun r => { r with eff := 0 } := by
  simp only [Grid.regrade, List.map_map]
  refine List.map_congr_left fun r _ => ?_
  simp only [Function.comp]
  split <;> rfl

theorem Work.settled_trails (w : Work) : w.settled.grid.Trails w.grid :=
  ⟨⟨rfl, rfl, rfl, rfl, rfl, rfl, rfl⟩, rfl, rfl, Grid.regrade_calls_eff _, by
    simp only [Work.settled_grid, Grid.regrade, Grid.recount, List.map_map]
    rfl, rfl⟩

theorem Work.resolve_trails (t : Trigger) (w : Work) : (w.resolve t).grid.Trails w.grid :=
  ⟨⟨rfl, rfl, rfl, rfl, rfl, rfl, rfl⟩, rfl, rfl, rfl, by
    simp only [Work.resolve, List.map_map]
    exact List.map_congr_left fun s _ => Segment.resolved_keys _ _ _ _ _ s, rfl⟩

theorem Work.resolveChanges_trails (before : Grid) (w : Work) : (w.resolveChanges before).grid.Trails w.grid := by
  unfold Work.resolveChanges
  dsimp only
  split
  · exact Work.resolve_trails _ w
  · exact .refl _

theorem Grid.recompute_trails (f : Nat) (p : Option Nat) (b : Bool) (rg : List Nat) (g : Grid) :
    (g.recompute f p b rg).Trails g := by
  refine ⟨⟨rfl, rfl, rfl, rfl, rfl, rfl, rfl⟩, rfl, rfl, rfl, ?_, rfl⟩
  unfold Grid.recompute
  dsimp only
  rw [List.map_map]
  refine List.map_congr_left fun s _ => ?_
  simp only [Function.comp]
  split
  · exact Segment.stableUpdate_keys _ _ _ _
  · rfl

theorem Grid.treeInput_trails (f v : Nat) (g : Grid) :
    (g.onFeed f fun r => { r with treeInput := some v }).Trails g := by
  refine ⟨⟨rfl, rfl, rfl, rfl, rfl, rfl, rfl⟩, rfl, rfl, rfl, rfl, ?_⟩
  rw [Grid.onFeed_feeds, List.map_map]
  refine List.map_congr_left fun r _ => ?_
  simp only [Function.comp]
  split <;> rfl

theorem Grid.recomputeFor_trails (f : Nat) (causes : List TreeCause) (regained : List Nat) (g : Grid) :
    (g.recomputeFor f causes regained).Trails g := by
  unfold Grid.recomputeFor
  split
  · exact .refl g
  · split
    · split
      · exact (Grid.treeInput_trails _ _ _).trans (Grid.recompute_trails _ _ _ _ _)
      · exact .refl g
    · split
      · exact Grid.recompute_trails _ _ _ _ _
      · exact .refl g

/-- A property that each step of a fold keeps holds at its end. -/
theorem foldl_kept {α β : Type} (P : β → β → Prop) (hr : ∀ b, P b b) (ht : ∀ a b c, P a b → P b c → P a c)
    (f : β → α → β) (hf : ∀ b a, P (f b a) b) (l : List α) (b : β) : P (l.foldl f b) b := by
  induction l generalizing b with
  | nil => exact hr b
  | cons a l ih => exact ht _ _ _ (ih (f b a)) (hf b a)

theorem Work.recomputeAll_trails (w : Work) : w.recomputeAll.grid.Trails w.grid := by
  unfold Work.recomputeAll
  split
  · simp only [Work.on_grid]
    refine foldl_kept Grid.Trails Grid.Trails.refl (fun _ _ _ => Grid.Trails.trans) _ (fun g f => ?_) _ _
    split
    · exact .refl g
    · exact Grid.recomputeFor_trails _ _ _ _
  · exact .refl _

/-! ### Verification and quiescence -/

/-- Outside ADOPT-PENDING no adoption follows an event. -/
theorem Work.quiesce_of_ne {before : Grid} {w : Work} (h : w.grid.engine.state ≠ .adoptPending) :
    w.quiesce before = w := by
  unfold Work.quiesce
  split
  · rfl
  · rw [if_neg]
    exact fun hh => h hh.1

/-- An event that ends with an order outstanding, or began with none, brings no quiescence. -/
theorem Work.quiesce_of_orders {before : Grid} {w : Work} (h : before.ordered = [] ∨ w.grid.ordered ≠ []) :
    w.quiesce before = w := by
  unfold Work.quiesce
  split
  · rfl
  · rw [if_neg]
    rintro ⟨_, hh⟩
    simp only [Bool.and_eq_true, Bool.not_eq_true', List.isEmpty_eq_false_iff, List.isEmpty_iff] at hh
    rcases h with h | h
    · exact hh.1 h
    · exact h hh.2

/-- All that a report of quiescence can do: nothing; in ADOPT-PENDING, with a copy staged and the last order gone, the
return to MAINTENANCE with the conflict; or the adoption of the copy. -/
theorem Work.quiesce_cases (before : Grid) (w : Work) :
    w.quiesce before = w ∨
      ∃ stg, w.grid.engine.staging = some stg ∧ w.grid.engine.state = .adoptPending ∧ before.ordered ≠ [] ∧
        w.grid.ordered = [] ∧
        ((∃ c, w.grid.conflict stg.topo = some c ∧ w.quiesce before =
            (w.on fun g => { g with engine := { g.engine with state := .maintenance, conflict := some c } }).post
              .engineConflict 0 .urgent) ∨
          w.grid.conflict stg.topo = none ∧ w.quiesce before = w.adopt stg.topo) := by
  unfold Work.quiesce
  split
  · exact .inl rfl
  next stg hs =>
    split
    next h =>
      obtain ⟨ha, ho⟩ := h
      simp only [Bool.and_eq_true, Bool.not_eq_true', List.isEmpty_eq_false_iff, List.isEmpty_iff] at ho
      refine .inr ⟨stg, hs, ha, ho.1, ho.2, ?_⟩
      split
      next c hc => exact .inl ⟨c, hc, rfl⟩
      next hc => exact .inr ⟨hc, rfl⟩
    next => exact .inl rfl

/-- Outside VERIFYING no verification is completed. -/
theorem Work.verify_of_ne {before : Grid} {w : Work} (h : w.grid.engine.state ≠ .verifying) :
    w.verify before = w := by
  unfold Work.verify
  rw [if_neg]
  exact fun hh => h hh.1

/-! ### The call desk -/

theorem dispatch_fixed (fuel : Nat) (g : Grid) : (dispatch fuel g).Fixed g := by
  induction fuel generalizing g with
  | zero => exact .refl g
  | succ n ih =>
    unfold dispatch
    split
    · exact .refl g
    · split
      · exact .refl g
      · exact (ih _).trans ⟨rfl, rfl, rfl, rfl, rfl, rfl, rfl⟩

theorem dispatch_tables (fuel : Nat) (g : Grid) :
    (dispatch fuel g).segs = g.segs ∧ (dispatch fuel g).feeds = g.feeds ∧ (dispatch fuel g).screens = g.screens := by
  induction fuel generalizing g with
  | zero => exact ⟨rfl, rfl, rfl⟩
  | succ n ih =>
    unfold dispatch
    split
    · exact ⟨rfl, rfl, rfl⟩
    · split
      · exact ⟨rfl, rfl, rfl⟩
      · exact ih _

/-- A pass changes no number of calls. -/
theorem dispatch_calls_length (fuel : Nat) (g : Grid) : (dispatch fuel g).calls.length = g.calls.length := by
  induction fuel generalizing g with
  | zero => rfl
  | succ n ih =>
    unfold dispatch
    split
    · rfl
    · split
      · rfl
      · rw [ih]
        simp [Grid.handOut]

/-- Without an AVAILABLE crew a pass hands out nothing. -/
theorem dispatch_of_no_crew (fuel : Nat) {g : Grid} (h : ∀ k ∈ g.crews, k.state ≠ .available) :
    dispatch fuel g = g := by
  cases fuel with
  | zero => rfl
  | succ n =>
    unfold dispatch
    split
    · rfl
    · have hnone : ∀ c, g.choose c = none := by
        intro c
        have : (g.crews.filter fun k => k.state == .available) = [] := by
          rw [List.filter_eq_nil_iff]
          intro k hk
          simpa using h k hk
        unfold Grid.choose
        rw [this]
        rfl
      simp [hnone]

/-- A pass keeps every call but for its state and crew, and every crew's number and home feed. -/
theorem dispatch_keys (fuel : Nat) (g : Grid) :
    ((dispatch fuel g).calls.map fun r => { r with eff := 0, state := .waiting, crew := none }) =
      (g.calls.map fun r => { r with eff := 0, state := .waiting, crew := none }) ∧
    ((dispatch fuel g).crews.map fun r => (r.num, r.home)) = g.crews.map fun r => (r.num, r.home) := by
  induction fuel generalizing g with
  | zero => exact ⟨rfl, rfl⟩
  | succ n ih =>
    unfold dispatch
    split
    · exact ⟨rfl, rfl⟩
    · split
      · exact ⟨rfl, rfl⟩
      · obtain ⟨h1, h2⟩ := ih (g.handOut ‹Call›.num ‹Crew›.num)
        refine ⟨h1.trans ?_, h2.trans ?_⟩
        · simp only [Grid.handOut, Grid.onCrew_calls, Grid.onCall_calls, List.map_map]
          refine List.map_congr_left fun r _ => ?_
          simp only [Function.comp]
          split <;> rfl
        · simp only [Grid.handOut, Grid.onCrew_crews, Grid.onCall_crews, List.map_map]
          refine List.map_congr_left fun r _ => ?_
          simp only [Function.comp]
          split <;> rfl

theorem Work.desk_fixed (w : Work) : w.desk.grid.Fixed w.grid :=
  (dispatch_fixed _ _).trans ⟨rfl, rfl, rfl, rfl, rfl, rfl, rfl⟩

/-! ### The end of an event -/

theorem Work.monitored_fixed (before : Grid) (w : Work) : (w.monitored before).grid.Fixed w.grid :=
  ⟨rfl, rfl, rfl, rfl, rfl, rfl, rfl⟩

/-- The records of an event's own handling once its changes are resolved. -/
theorem Work.resolved_trails (before : Grid) (w : Work) :
    (w.settled.resolveChanges before).settled.grid.Trails w.grid :=
  ((Work.settled_trails _).trans (Work.resolveChanges_trails before _)).trans (Work.settled_trails w)

/-- No adoption follows an event outside ADOPT-PENDING, nor one that ends with an order outstanding or began with none. -/
theorem Work.quiesce_resolved {before : Grid} {w : Work}
    (hq : w.grid.engine.state ≠ .adoptPending ∨ before.ordered = [] ∨ w.grid.ordered ≠ []) :
    (w.settled.resolveChanges before).settled.quiesce before = (w.settled.resolveChanges before).settled := by
  have h := (Work.resolved_trails before w).fixed
  rcases hq with hq | hq | hq
  · exact Work.quiesce_of_ne (by rw [h.engine]; exact hq)
  · exact Work.quiesce_of_orders (.inl hq)
  · refine Work.quiesce_of_orders (.inr ?_)
    unfold Grid.ordered at hq ⊢
    rw [h.valves]
    exact hq

/-- What follows an event that brings no adoption and completes no verification. -/
theorem Work.consequences_trails {before : Grid} {w : Work}
    (hq : w.grid.engine.state ≠ .adoptPending ∨ before.ordered = [] ∨ w.grid.ordered ≠ [])
    (hv : w.grid.engine.state ≠ .verifying) : (w.consequences before).grid.Trails w.grid := by
  have h := (Work.settled_trails _).trans (Work.resolved_trails before w)
  have hv' : ((w.settled.resolveChanges before).settled).settled.verify before =
      ((w.settled.resolveChanges before).settled).settled :=
    Work.verify_of_ne (by rw [h.fixed.engine]; exact hv)
  unfold Work.consequences
  rw [Work.quiesce_resolved hq, hv']
  exact (Work.recomputeAll_trails _).trans ((Work.settled_trails _).trans h)

/-- The end of an event that brings no adoption and completes no verification leaves the engine, valves, points,
isolations and counters as the event left them. -/
theorem Work.finished_fixed {before : Grid} {w : Work}
    (hq : w.grid.engine.state ≠ .adoptPending ∨ before.ordered = [] ∨ w.grid.ordered ≠ [])
    (hv : w.grid.engine.state ≠ .verifying) : (w.finished before).Fixed w.grid :=
  ((Work.monitored_fixed before _).trans (Work.desk_fixed _)).trans (Work.consequences_trails hq hv).fixed

/-- The engine goes LIVE or not; no other of these records changes. -/
theorem Work.verify_tables (before : Grid) (w : Work) :
    (w.verify before).grid.valves = w.grid.valves ∧ (w.verify before).grid.points = w.grid.points ∧
      (w.verify before).grid.isos = w.grid.isos := by
  unfold Work.verify
  split <;> exact ⟨rfl, rfl, rfl⟩

/-- Unless an adoption follows, the end of an event leaves valves, points and isolations. -/
theorem Work.finished_tables {before : Grid} {w : Work}
    (hq : w.grid.engine.state ≠ .adoptPending ∨ before.ordered = [] ∨ w.grid.ordered ≠ []) :
    (w.finished before).valves = w.grid.valves ∧ (w.finished before).points = w.grid.points ∧
      (w.finished before).isos = w.grid.isos := by
  have h1 := (Work.settled_trails _).trans (Work.resolved_trails before w)
  have h2 := Work.verify_tables before ((w.settled.resolveChanges before).settled).settled
  have h3 := (Work.monitored_fixed before (w.consequences before).desk).trans (Work.desk_fixed (w.consequences before))
  have h4 : (w.consequences before).grid.Fixed
      (((w.settled.resolveChanges before).settled).settled.verify before).grid := by
    unfold Work.consequences
    rw [Work.quiesce_resolved hq]
    exact ((Work.recomputeAll_trails _).trans (Work.settled_trails _)).fixed
  have h5 := h3.trans h4
  exact ⟨h5.valves.trans (h2.1.trans h1.fixed.valves), h5.points.trans (h2.2.1.trans h1.fixed.points),
    h5.isos.trans (h2.2.2.trans h1.fixed.isos)⟩

/-- The desk's pass and the monitor keep what `Grid.Follows` names. -/
theorem Work.wound_follows (before : Grid) (w : Work) : (w.desk.monitored before).grid.Follows w.grid := by
  have hf := (Work.monitored_fixed before w.desk).trans (Work.desk_fixed w)
  have ht := dispatch_tables
  have hd := dispatch_keys
  refine ⟨hf.engine, hf.valves, hf.points, hf.isos, hf.lastCall, hf.arrival, hf.lastIso, ?_, ?_, ?_, ?_, ?_⟩
  all_goals simp only [Work.monitored, Work.rescreen, Work.noted_grid, Grid.refreshVectors, Work.desk, Work.on_grid,
    Grid.dispatchPass, List.map_map]
  · rw [(ht _ _).1]
    simp only [Grid.regrade, Grid.recount, List.map_map]
    rfl
  · rw [(ht _ _).2.1]
    rfl
  · rw [(hd _ _).1]
    simp only [Grid.regrade, Grid.recount, List.map_map]
    refine List.map_congr_left fun r _ => ?_
    simp only [Function.comp]
    split <;> rfl
  · rw [(hd _ _).2]
    rfl
  · rw [(ht _ _).2.2]
    rfl

/-- Records that trail others follow them, whatever follows the former. -/
theorem Grid.Follows.of_trails {a b c : Grid} (h : a.Follows b) (k : b.Trails c) : a.Follows c where
  engine := h.engine.trans k.fixed.engine
  valves := h.valves.trans k.fixed.valves
  points := h.points.trans k.fixed.points
  isos := h.isos.trans k.fixed.isos
  lastCall := h.lastCall.trans k.fixed.lastCall
  arrival := h.arrival.trans k.fixed.arrival
  lastIso := h.lastIso.trans k.fixed.lastIso
  segs := h.segs.trans k.segs
  feeds := h.feeds.trans k.feeds
  calls := h.calls.trans (by
    have hk := congrArg (List.map fun r : Call => { r with state := .waiting, crew := none }) k.calls
    simpa only [List.map_map, Function.comp_def] using hk)
  crews := h.crews.trans (by rw [k.crews])
  screens := h.screens.trans (by rw [k.screens])

/-- THE END OF AN EVENT, said once: outside an adoption and a completed verification, the records follow those the event
left. -/
theorem Work.finished_follows {before : Grid} {w : Work}
    (hq : w.grid.engine.state ≠ .adoptPending ∨ before.ordered = [] ∨ w.grid.ordered ≠ [])
    (hv : w.grid.engine.state ≠ .verifying) : (w.finished before).Follows w.grid :=
  (Work.wound_follows before _).of_trails (Work.consequences_trails hq hv)

/-! ### One turn of a dispatch pass (07 R130) -/

/-- With a head and a crew for it, a turn hands out and the pass goes on. -/
theorem dispatch_serves {n : Nat} {g : Grid} {c : Call} {w : Crew} (hc : g.queue.head? = some c)
    (hw : g.choose c = some w) : dispatch (n + 1) g = dispatch n (g.handOut c.num w.num) := by
  simp only [dispatch, hc, hw]

/-- An empty queue, or no crew for its head, ends the pass. -/
theorem dispatch_stops {n : Nat} {g : Grid} (h : ∀ c, g.queue.head? = some c → g.choose c = none) :
    dispatch n g = g := by
  cases n with
  | zero => rfl
  | succ n =>
    cases hc : g.queue.head? with
    | none => simp only [dispatch, hc]
    | some c => simp only [dispatch, hc, h c hc]

end Sys2Proof.Machine
end

