-- ==== Sys2Proof/Laws/Keys.lean ====
section
/-! SUPPORT. What writing and deleting a key of a staged table does to every look-up, and all that the recomputation of a
reached tree can do. -/
namespace Sys2Proof.Machine

theorem lookup_pair {α : Type} (m a : Nat) (x : α) (l : List (Nat × α)) :
    List.lookup m ((a, x) :: l) = if m = a then some x else l.lookup m := by
  by_cases e : m = a
  · simp [e]
  · rw [List.lookup_cons, if_neg e, (by simpa using e : (m == a) = false)]

/-- An entry inserted into a table that lacks its key is the only thing a look-up can find anew. -/
theorem lookup_insertBy {α : Type} (n m : Nat) (x : α) (l : List (Nat × α)) (h : l.lookup n = none) :
    (insertBy (·.1) (n, x) l).lookup m = if m = n then some x else l.lookup m := by
  induction l with
  | nil => exact lookup_pair m n x []
  | cons y ys ih =>
    obtain ⟨a, b⟩ := y
    rw [lookup_pair] at h
    split at h
    · cases h
    · next hn =>
      unfold insertBy
      split
      · exact lookup_pair m n x _
      · rw [lookup_pair, lookup_pair, ih h]
        by_cases e : m = a
        · subst e; rw [if_pos rfl, if_pos rfl, if_neg (Ne.symm hn)]
        · rw [if_neg e, if_neg e]

/-- Deleting a key empties its place and leaves every other look-up. -/
@[simp] theorem lookup_dropKey {α : Type} (n m : Nat) (l : List (Nat × α)) :
    (dropKey n l).lookup m = if m = n then none else l.lookup m := by
  induction l with
  | nil => simp [dropKey]
  | cons y ys ih =>
    obtain ⟨a, b⟩ := y
    unfold dropKey at ih ⊢
    by_cases e : a = n
    · subst e
      simp only [List.filter_cons, bne_self_eq_false, Bool.false_eq_true, if_false, ih, lookup_pair]
      split <;> rfl
    · simp only [List.filter_cons, bne_iff_ne, ne_eq, e, not_false_eq_true, if_true, lookup_pair, ih]
      by_cases k : m = a
      · subst k; rw [if_pos rfl, if_neg e, if_pos rfl]
      · rw [if_neg k, if_neg k]

/-- Writing a key puts the entry in its place and leaves every other look-up. -/
@[simp] theorem lookup_putKey {α : Type} (n m : Nat) (x : α) (l : List (Nat × α)) :
    (putKey n x l).lookup m = if m = n then some x else l.lookup m := by
  have h := lookup_insertBy n m x (dropKey n l) (by simp)
  rw [show putKey n x l = insertBy (·.1) (n, x) (dropKey n l) from rfl, h]
  by_cases e : m = n <;> simp [e]

/-- All that the recomputation of a reached tree can do (03 R49, R51): recompute it from the feed's input, recompute it
from the tree input, or nothing. -/
theorem Grid.recomputeFor_cases (f : Nat) (causes : List TreeCause) (regained : List Nat) (g : Grid) :
    (∃ fd i, g.feed? f = some fd ∧ fd.input = some i ∧ fd.presence = .present ∧
      (!(g.tree f).isEmpty || causes.any (· != .restructured)) = true ∧
      g.recomputeFor f causes regained =
        (g.recompute f (some i.value) (causes.contains .sample) regained).onFeed f
          fun r => { r with treeInput := some i.value }) ∨
    (∃ fd, g.feed? f = some fd ∧ fd.input = none ∧ causes.contains .restructured = true ∧
      g.recomputeFor f causes regained = g.recompute f fd.treeInput false regained) ∨
    (g.recomputeFor f causes regained = g ∧ ∀ fd, g.feed? f = some fd →
      (fd.input = none → causes.contains .restructured = false) ∧
      (fd.input.isSome = true → fd.presence = .present →
        (!(g.tree f).isEmpty || causes.any (· != .restructured)) = false)) := by
  unfold Grid.recomputeFor
  cases hf : g.feed? f with
  | none => exact .inr (.inr ⟨rfl, fun _ h => by cases h⟩)
  | some fd =>
    cases hi : fd.input with
    | none =>
      by_cases hc : causes.contains .restructured = true
      · exact .inr (.inl ⟨fd, rfl, hi, hc, by simp only [hi, hc, if_true]⟩)
      · refine .inr (.inr ⟨by simp only [hi]; rw [if_neg hc], fun _ h => ?_⟩)
        cases h
        exact ⟨fun _ => by simpa using hc, fun h => by simp [hi] at h⟩
    | some i =>
      by_cases hp : fd.presence = .present ∧ (!(g.tree f).isEmpty || causes.any (· != .restructured)) = true
      · exact .inl ⟨fd, i, rfl, hi, hp.1, hp.2, by simp only [hi]; rw [if_pos hp]⟩
      · refine .inr (.inr ⟨by simp only [hi]; rw [if_neg hp], fun _ h => ?_⟩)
        cases h
        exact ⟨fun h => by simp [hi] at h, fun _ h => by simpa [h] using hp⟩

end Sys2Proof.Machine
end

