-- ==== Sys2Proof/Tests/Slice0.lean ====
section
/-! SUPPORT. The model's own tests: an ill-formed command for each check of `Instr.wellFormed`, the manual's worked
figures, and for each obligation with hypotheses a concrete state and operands that meet them. -/
open Sys2Proof Sys2Proof.Machine
namespace Sys2Proof.Tests

/-! ### Well-formedness refuses each operand that does not fit its field -/

theorem test_wellFormed_refuses_requests :
    ([.setClock 0 4294967296, .read 0 256 0, .read 0 0 65536, .list 0 256 0 0, .list 0 0 65536 0, .list 0 0 0 65536,
      .amend 0 256 0 0 [], .amend 0 0 65536 0 [], .amend 0 0 0 65536 [], .amend 0 0 0 0 (List.replicate 31 0),
      .weather 0 65536, .loadCursor 0 256 0, .loadCursor 0 0 65536, .loadPart 0 [], .loadPart 0 (List.replicate 15 0),
      .sample 0 65536 0 0, .sample 0 0 65536 0, .sample 0 0 0 256] : List Instr).all (fun i => !i.wellFormed) = true := by
  decide

theorem test_wellFormed_refuses_valves_and_timers :
    ([.pointIntervalExpiry 768, .valveReport 0 65536 0, .valveReport 0 0 256, .valveClose 0 65536,
      .valveCloseTimed 0 65536 0, .valveCloseTimed 0 0 4294967296, .valveOpen 0 65536, .clearFault 0 65536 0,
      .clearFault 0 0 256, .orderTimeout 1024, .timedHoldExpiry 1024, .verifyDeadlineExpiry 1024,
      .callDeadlineExpiry 0, .callDeadlineExpiry 65536] : List Instr).all (fun i => !i.wellFormed) = true := by
  decide

theorem test_wellFormed_refuses_desk :
    ([.isolate 0 65536 0, .isolate 0 0 65536, .release 0 65536, .relight 0 65536 0, .relight 0 0 65536, .settle 0 65536,
      .call 0 256 0 0 0, .call 0 0 65536 0 0, .call 0 0 0 4294967296 0, .call 0 0 0 0 256, .assign 0 65536 0,
      .assign 0 0 65536, .callEventOnSite 0 65536, .callEventMadeSafe 0 65536, .callEventClose 0 65536,
      .crew 0 65536 0 0, .crew 0 0 65536 0, .crew 0 0 0 256, .screenSet 0 65536 0 0 0 0, .screenSet 0 0 256 0 0 0,
      .screenSet 0 0 0 65536 0 0, .screenSet 0 0 0 0 65536 0, .screenSet 0 0 0 0 0 65536, .screenOff 0 65536] :
      List Instr).all (fun i => !i.wellFormed) = true := by
  decide

/-! ### The manual's figures -/

/-- 02 Table 2-3. -/
theorem test_scaling_table :
    let st (low span : Nat) : PointStatic := ⟨.feed, low, span, 4, 4, 2, 60, .hold, 0, 4000, 1600, 100⟩
    scaled (st 0 10000) 1126 = 2750 ∧ scaled (st 0 10000) 1105 = 2698 ∧ scaled (st 0 10000) 4095 = 10000 ∧
      scaled (st 990000 20000) 4095 = 999999 ∧ scaled (st 500 3000) 0 = 500 := by decide

/-- 02 Table 2-4. -/
theorem test_smoothing_table :
    smooth 2 2750 2698 = 2737 ∧ smooth 2 2737 2751 = 2741 ∧ smooth 2 2741 2731 = 2738 ∧ smooth 2 2738 2739 = 2738 := by
  decide

/-- 03 Table 3-4, the example w = 100, h = 150 and the overlap in the row NORMAL. -/
theorem test_band_example :
    bandFor (some .short) 120 100 150 = .short ∧ bandFor (some .short) 160 100 150 = .low ∧
      bandFor (some .short) 250 100 150 = .normal ∧ bandFor (some .normal) 120 100 150 = .normal ∧
      bandFor none (-1) 0 0 = .short := by decide

/-- 11 Table 11-1: FETCH with tag 5 is D5 05 05 00 F6. -/
theorem test_fetch_frame_sent :
    (State.transmit { State.reset with link := { State.reset.link with transmit := [⟨0x05, 5, []⟩] } }).sent =
      some [0xD5, 0x05, 0x05, 0x00, 0xF6] := by decide

/-! ### A small network: the tree of 03 section 3.7 after case 1, with a segment shut off behind it -/

def segSt (customers resistance : Nat) (ext : Option Nat) : SegStatic :=
  ⟨5, customers, 800, resistance, 1900, 250, 50, 150, ext⟩

def segA : Segment :=
  { newSegment 10 (segSt 1200 150 none) with
    supply := .fed ⟨5, .feed 5, 79, 1⟩
    est := ⟨1128000, 1692000, 429, some ⟨2321, 421, .normal⟩, false, none, none⟩
    conds := 1 }

def partB : Outage := ⟨.operator 80, .relighting, 300, 600, 0, 4, some 4, 0, 20000, 900⟩

def segB : Segment :=
  { newSegment 11 (segSt 900 900 (some 101)) with
    supply := .fed ⟨5, .seg 10, 80, 2⟩
    est := ⟨564000, 564000, 286, some ⟨2035, 135, .low⟩, false, none, none⟩
    outage := some partB
    conds := 29 }

def segC : Segment :=
  { newSegment 12 (segSt 10 0 none) with
    supply := .unfed
    outage := some ⟨.operator 82, .off, 10, 0, 255, 0, none, 65535, 900, 10⟩
    conds := 4 }

def line (n a b : Nat) : Valve := newValve false n ⟨.line, a, b, 60, []⟩

def outletA : Valve := newValve false 79 ⟨.outlet, 10, 5, 60, []⟩
def valveC : Valve := { line 82 11 12 with state := .closed, known := .closed, hold := .plain }

def pointSt (k : PointKind) : PointStatic := ⟨k, 0, 10000, 4, 4, 2, 60, .hold, 0, 4000, 1600, 100⟩

def lockedPoint (n : Nat) (k : PointKind) : Point :=
  { newPoint 900 n (pointSt k) with lock := .locked, latest := some 2750, smoothed := some 2750 }

def feed5 : Feed :=
  { num := 5, st := ⟨100, 1500, 2000, 4⟩, presence := .present, low := 0, high := 15, input := some ⟨2750, .live⟩,
    stale := false, treeInput := some 2750 }

def town : Grid :=
  { Grid.reset with
    engine := { Grid.reset.engine with state := .live, run := 1000, weather := 1175 }
    segs := [segA, segB, segC]
    valves := [outletA, { line 80 10 11 with st := ⟨.line, 10, 11, 60, [81]⟩ }, newValve false 81 ⟨.tie, 11, 12, 60, []⟩,
      valveC]
    points := [lockedPoint 100 .feed, lockedPoint 101 .extremity, newPoint 900 102 (pointSt .general)]
    feeds := [feed5]
    crews := [⟨0, some 5, .available, none⟩, ⟨1, none, .offShift, none⟩] }

/-- The machine with these records, and a notice list of one urgent and one routine entry. -/
def at' (g : Grid) : State := { State.reset with grid := g }

def nextOf (i : Instr) (g : Grid) : Option Grid :=
  match exec i (at' g) with
  | .next t => some t.grid
  | .fault _ => none
  | .refused _ => none

def alertOf (i : Instr) (g : Grid) : Option Bool :=
  match exec i (at' g) with
  | .next t => some t.pins.alert
  | .fault _ => none
  | .refused _ => none

def replyOf (i : Instr) (g : Grid) : Option (List Byte) :=
  match exec i (at' g) with
  | .next t => t.link.transmit.head?.map fun f => f.payload
  | .fault _ => none
  | .refused _ => none

def inState (e : EngineState) (g : Grid) : Grid := { g with engine := { g.engine with state := e } }

/-! ### One step of a command, against the manual's words -/

/-- 03 section 3.7, case 2. -/
theorem test_weather_case2 :
    ((nextOf (.weather 0 1250) town).bind fun g => g.seg? 11).map (fun r => (r.est.flow, r.est.drop, r.est.level)) =
      some (600000, 324, some ⟨1940, 40, .low⟩) := by decide

/-- 03 section 3.7, case 3, at the factor 1,175 its last paragraph computes. -/
theorem test_relight_case3 :
    ((nextOf (.relight 0 11 100) town).bind fun g => g.seg? 11).map (fun r => (r.off, r.est.flow, r.est.level)) =
      some (200, 658000, some ⟨1882, -18, .short⟩) := by decide

/-- 06 Table 6-6, 24,600: the off count joins the unrelit count and the part ends. -/
theorem test_settle_ends :
    ((nextOf (.settle 0 11) town).bind fun g => g.seg? 11).map (fun r => (r.outage.isNone, r.unrelit)) =
      some (true, 300) := by decide

/-- 02 Table 2-8, event 7. -/
theorem test_sample_event7 :
    ((nextOf (.sample 0 100 1105 0) town).bind fun g => g.point? 100).map (fun p => (p.latest, p.smoothed)) =
      some (some 2698, some 2737) := by decide

/-- 02 R29: a raw value of 4,096 is a miss although it is marked GOOD. -/
theorem test_sample_out_of_range :
    ((nextOf (.sample 0 100 4096 0) town).bind fun g => g.point? 100).map (fun p => (p.latest, p.miss)) =
      some (some 2750, 1) := by decide

/-- 02 R33: an expiry counts a miss and restarts the timer. -/
theorem test_interval_expiry :
    ((nextOf (.pointIntervalExpiry 100) town).bind fun g => g.point? 100).map (fun p => (p.miss, p.deadline)) =
      some (1, 1060) := by decide

/-- 04 Table 4-8, 5,000: a timed closure of 900 s at run seconds 1,000. -/
theorem test_close_timed :
    ((nextOf (.valveCloseTimed 0 80 900) town).bind fun g => g.valve? 80).map
        (fun v => (v.state, v.hold, v.order.map fun o => (o.num, o.deadline))) =
      some (.closing, .timed 1900, some (1, 1060)) := by decide

/-- 04 R71. -/
theorem test_close_orders :
    ((nextOf (.valveClose 0 80) town).bind fun g => g.valve? 80).map (fun v => (v.state, v.known, v.hold)) =
      some (.closing, .opened, .plain) := by decide

/-- 04 R67: VALVE-OPEN of the held valve 82 reopens it, and it is not passable yet. -/
theorem test_open_orders :
    ((nextOf (.valveOpen 0 82) town).bind fun g => g.valve? 82).map (fun v => (v.state, v.hold, v.passable)) =
      some (.opening, .none, false) := by decide

/-- 04 R77: a CLOSED report on an OPEN valve closes it uncommanded, and the segments behind lose supply. -/
theorem test_report_uncommanded :
    (nextOf (.valveReport 0 80 1) town).map (fun g =>
        ((g.valve? 80).map fun v => (v.state, v.uncommanded), (g.seg? 11).map fun r => r.outage.map fun p => (p.cause, p.off, p.repeats))) =
      some (some (.closed, true), some (some (.uncommanded 80, 900, 1))) := by decide

/-- 04 R77: MOVING on a CLOSED valve loses its position, urgent. -/
theorem test_report_position_lost :
    ((nextOf (.valveReport 0 82 2) town).bind fun g => g.valve? 82).map (fun v => (v.state, v.known)) =
        some (.stuck, .opened) ∧ alertOf (.valveReport 0 82 2) town = some true := by decide

/-- 05 R92: the touching valves of segment 11 in ascending number, the closed ones CLOSED at once. -/
theorem test_isolate_plan :
    ((nextOf (.isolate 0 11 0) town).bind fun g => g.iso? 1).map
        (fun i => (i.plan.map fun e => (e.valve, e.status), i.stage)) =
      some ([(80, .waiting), (81, .closed), (82, .closed)], .closing) := by decide

/-- 07 R125, R130: a grade 2 escape gets the free crew of the home feed, and its deadline is 7,200 s ahead. -/
theorem test_call_assigned :
    ((nextOf (.call 0 0 10 7 2) town).bind fun g => g.call? 1).map (fun c => (c.state, c.crew, c.eff, c.deadline)) =
      some (.assigned, some 0, 2, 8200) := by decide

/-- 07 R124: a NO-SUPPLY call into an outage is counted there. -/
theorem test_call_counted :
    (nextOf (.call 0 1 11 7 2) town).map (fun g => (g.calls.length, (g.seg? 11).map fun r => r.outage.map fun p => p.reports)) =
      some (0, some (some 1)) := by decide

/-- 11 R172 and 02 R27: the reply of SAMPLE: DONE, LOCKED, no miss, 2,750 twice. -/
theorem test_sample_reply :
    replyOf (.sample 0 100 1126 0) town = some (0 :: 1 :: 0 :: be 4 2750 ++ be 4 2750) := by decide

/-- 09 R152: an empty copy has nothing to verify and goes LIVE. -/
theorem test_commit_empty :
    (nextOf (.commit 0) { Grid.reset with
        engine := { Grid.reset.engine with state := .loading, staging := some ⟨.empty, ⟨.feed, 64, 0, [], .write⟩⟩ } }).map
      (fun g => (g.engine.state, g.crews.length)) = some (.live, 48) := by decide

/-- 09 R158: run seconds wrap. -/
theorem test_run_wraps :
    (nextOf .runSecondsAdvance { town with engine := { town.engine with run := 0xFFFFFFFF } }).map
      (fun g => g.engine.run) = some 0 := by decide

/-- 08 R144: a screen for LOW segments of feed 5 that are in RELIGHTING matches segment 11. -/
theorem test_screen_set :
    ((nextOf (.screenSet 0 3 0 5 0x18 0x18) town).bind fun g => g.screen? 3).map (fun c => (c.matched, c.entered)) =
      some ([11], [11]) := by decide

/-- 01 Tables 1-9 to 1-11: with valve 1 closed and tie valve 5 open, segments 11 and 12 are fed from feed 1. -/
def backFed : Grid :=
  let st (b : Valve) (sd : ValveState) (k : Position) : Valve := { b with state := sd, known := k }
  { Grid.reset with
    segs := [10, 11, 12, 20, 21].map fun n => newSegment n (segSt 1 0 none)
    valves := [newValve false 0 ⟨.outlet, 10, 0, 60, []⟩, st (line 1 10 11) .closed .closed, line 2 11 12,
      newValve false 3 ⟨.outlet, 20, 1, 60, []⟩, line 4 20 21,
      st (newValve false 5 ⟨.tie, 12, 21, 60, []⟩) .opened .opened]
    feeds := [{ feed5 with num := 0 }, { feed5 with num := 1 }] }

theorem test_resolution_back_feed :
    [10, 11, 12, 20, 21].map (supplyIn backFed.reachedSegs) =
        [.fed ⟨0, .feed 0, 0, 1⟩, .fed ⟨1, .seg 12, 2, 4⟩, .fed ⟨1, .seg 21, 5, 3⟩, .fed ⟨1, .feed 1, 3, 1⟩,
          .fed ⟨1, .seg 20, 4, 2⟩] ∧
      [10, 11, 12, 20, 21].all (fun n => !meshedIn backFed backFed.reachedSegs n) = true := by decide

set_option maxRecDepth 8000 in
/-- 11 section 11.4: FETCH payloads of 118 (segment), 145 (screen) and 121 bytes (valve held by 32 isolations); a FETCH
payload has the outcome and six bytes before the body. -/
theorem test_record_lengths :
    (town.body? true ⟨.segment, 11⟩).map (fun b => b.length + 7) = some 118 ∧
      (town.body? true ⟨.screen, 3⟩).map (fun b => b.length + 7) = some 145 ∧
      ((town.onValve 80 fun v => { v with isos := List.range 32 }).body? true ⟨.valve, 80⟩).map (fun b => b.length + 7) =
        some 121 := by decide

/-- 04 R74: declared OPEN with nothing holding it, the valve rests OPEN and its latch is gone. -/
theorem test_clear_fault :
    ((nextOf (.clearFault 0 80 0) (town.onValve 80 fun v => { v with state := .stuck, fault := some ⟨.timeout, 9⟩ })).bind
        fun g => g.valve? 80).map (fun v => (v.state, v.known, v.fault)) = some (.opened, .opened, none) := by decide

/-- 04 R80: at the deadline the closing valve is STUCK with TIMEOUT and stays passable. -/
theorem test_order_timeout :
    ((nextOf (.orderTimeout 80) (town.onValve 80 fun v =>
        { v with state := .closing, order := some ⟨1, .closed, 940, 1000⟩, counter := 1 })).bind fun g => g.valve? 80).map
        (fun v => (v.state, v.known, v.order, v.passable)) = some (.stuck, .opened, none, true) := by decide

/-- 04 R82, R83. -/
theorem test_valve_timers :
    ((nextOf (.timedHoldExpiry 82) (town.onValve 82 fun v => { v with hold := .timed 1000 })).bind fun g => g.valve? 82).map
        (fun v => (v.state, v.hold)) = some (.opening, .none) ∧
      ((nextOf (.verifyDeadlineExpiry 82) (town.onValve 82 fun v => { v with verifyDeadline := some 1000 })).bind
        fun g => g.valve? 82).map (fun v => (v.unverified, v.verifyDeadline)) = some (true, none) := by decide

/-- 09 R160: MAINTENANCE becomes LIVE, a point SEEKING with its smoothed value kept. -/
theorem test_restart :
    (nextOf (.restart 0) { town with engine := { town.engine with state := .maintenance } }).map
        (fun g => (g.engine.state, (g.point? 100).map fun p => (p.lock, p.smoothed))) =
      some (.live, some (.seeking, some 2750)) := by decide

/-- 07 R135: a crew comes on shift with its home feed. -/
theorem test_crew_on :
    ((nextOf (.crew 0 1 5 0) { town with crews := [⟨1, none, .offShift, none⟩] }).bind fun g => g.crew? 1).map
      (fun k => (k.state, k.home)) = some (.available, some 5) := by decide

/-- 09 R150: the last part of a valve record replaces it in the copy, and the cursor goes to the next number. -/
theorem test_load_part_last :
    (nextOf (.loadPart 0 [0, 0, 0, 0, 60, 1, 0, 9]) { Grid.reset with
        engine := { Grid.reset.engine with state := .loading, staging := some ⟨.empty, ⟨.valve, 7, 1, [.valve1 .line 1 2], .write⟩⟩ } }).map
      (fun g => g.engine.staging) =
      some (some ⟨⟨[], [(7, ⟨.line, 1, 2, 60, [9]⟩)], [], []⟩, ⟨.valve, 8, 0, [], .write⟩⟩) := by decide

/-! ### Sound states for the hypotheses of the statements -/

theorem ascending_of {t : Topology}
    (h : (t.segs.map fun r => r.1).Pairwise (· < ·) ∧ (t.valves.map fun r => r.1).Pairwise (· < ·) ∧
      (t.points.map fun r => r.1).Pairwise (· < ·) ∧ (t.feeds.map fun r => r.1).Pairwise (· < ·)) : t.Ascending :=
  ⟨h.1, h.2.1, h.2.2.1, h.2.2.2⟩

theorem networkSound_of {g : Grid}
    (h : (g.segs.map fun r => r.num).Pairwise (· < ·) ∧ (g.valves.map fun r => r.num).Pairwise (· < ·) ∧
      (g.points.map fun r => r.num).Pairwise (· < ·) ∧ (g.feeds.map fun r => r.num).Pairwise (· < ·) ∧
      (g.crews.map fun r => r.num).Pairwise (· < ·) ∧ (g.feeds.map fun r => r.st.point).Nodup ∧
      (∀ v ∈ g.valves, v.order.isSome = true ↔ v.state = .closing ∨ v.state = .opening) ∧
      (g.engine.state = .verifying → ∀ v ∈ g.valves, v.isos = [] ∧ v.hold = .none ∧ v.order = none) ∧
      (g.engine.state.inService = true → ∀ s ∈ g.segs, s.supply = supplyIn g.reachedSegs s.num))
    (hs : ∀ stg, g.engine.staging = some stg → stg.topo.Ascending ∧ stg.topo.invalid = none) : g.NetworkSound where
  segs := h.1
  valves := h.2.1
  points := h.2.2.1
  feeds := h.2.2.2.1
  crews := h.2.2.2.2.1
  feedPoints := h.2.2.2.2.2.1
  orders := h.2.2.2.2.2.2.1
  verifying := h.2.2.2.2.2.2.2.1
  supply := h.2.2.2.2.2.2.2.2
  waiting := fun _ stg e => (hs stg e).2
  staged := fun stg e => (hs stg e).1

theorem unstaged {g : Grid} (h : g.engine.staging = none) (stg : Staging) (e : g.engine.staging = some stg) :
    stg.topo.Ascending ∧ stg.topo.invalid = none := by simp [h] at e

theorem isosSound_of {g : Grid}
    (h : (g.isos.map fun i => i.num).Nodup ∧ (∀ i ∈ g.isos, i.released = false → i.stage = stageOf i.plan) ∧
      ∀ i ∈ g.isos, i.released = false → (i.plan.map fun e => e.valve).Nodup) : g.IsosSound :=
  ⟨h.1, h.2.1, h.2.2⟩

theorem noticesSound_of {l : Link}
    (h : ((l.urgent ++ l.routine).map fun e => e.ref).Nodup ∧ ∀ e ∈ l.urgent ++ l.routine, e.changes ≠ 0) :
    l.NoticesSound := ⟨h.1, h.2⟩

theorem town_atWork : town.AtWork := .inl rfl
theorem town_networkSound : town.NetworkSound := networkSound_of (by decide) (unstaged rfl)
theorem town_isosSound : town.IsosSound := isosSound_of (by decide)
theorem town_withinCapacity : town.WithinCapacity := ⟨by decide, by decide, by decide⟩

/-- One isolation of segment 11, HELD, with its three valves closed, and its call. -/
def held : Isolation :=
  { num := 255, target := 11, call := none, stage := .held, started := 900, held := some 950, released := false,
    plan := [⟨80, .boundary, none, .closed⟩, ⟨81, .boundary, none, .closed⟩, ⟨82, .boundary, none, .closed⟩] }

def waitingCall (n : Nat) : Call :=
  { num := n, arrival := 1, kind := .escape, seg := 10, key := 7, base := 2, eff := 2, state := .waiting,
    received := 900, deadline := 8000, overdue := false, repeats := 0, crew := none, iso := none, withdrawn := false }

def withCalls (cs : List Call) (g : Grid) : Grid := { g with calls := cs }
def withIsos (is : List Isolation) (g : Grid) : Grid := { g with isos := is }

/-- The town with valve 80 changed. -/
def with80 (f : Valve → Valve) : Grid := town.onValve 80 f
def closing80 : Grid := with80 (Valve.addHolder town.ctx .plain)
def opening80 : Grid := with80 fun v => { v with state := .opening, known := .closed, order := some ⟨1, .opened, 0, 1000⟩ }
def stuck80 : Grid := with80 fun v => { v with state := .stuck, fault := some ⟨.timeout, 990⟩ }

def reportsOf (i : Instr) (g : Grid) (k : Change) (n : Nat) : Option Bool :=
  match exec i (at' g) with
  | .next t => some (changeSet ⟨k.record, n⟩ t.link &&& k.mask != 0)
  | .fault _ => none
  | .refused _ => none

/-- 01 R24, 09 R155: the closing of tie valve 80 cuts segment 12 off, and the adoption it brings feeds it by the same link
again through a new valve 83; both changes are posted. -/
theorem test_supply_posted_twice :
    let tie80 : Grid := town.onValve 80 fun v =>
      { v.addHolder town.ctx .plain with st := ⟨.tie, 10, 11, 60, []⟩ }
    let g : Grid := { tie80 with
      valves := tie80.valves.map fun v => if v.num = 82 then { v with state := .opened, known := .opened, hold := .none } else v
      segs := [segA, { segB with outage := none }, { segC with supply := .fed ⟨5, .seg 11, 82, 3⟩, outage := none }] }
    let copy : Topology := { g.topology with
      segs := g.topology.segs
      valves := (g.topology.valves.filter fun v => v.1 != 81) ++ [(83, ⟨.line, 10, 11, 60, []⟩)] }
    let w : Grid := { g with engine := { g.engine with
      state := .adoptPending, staging := some ⟨copy, ⟨.feed, 63, 0, [], .write⟩⟩ } }
    ((nextOf (.valveReport 0 80 1) w).bind fun r => r.seg? 12).map (fun r => r.supply) =
        some (.fed ⟨5, .seg 11, 82, 3⟩) ∧
      reportsOf (.valveReport 0 80 1) w .segSupply 12 = some true := by decide

/-- 04 R76, R86: a valve that passes CLOSED on its way to OPENING posts VERIFY. -/
theorem test_passed_closed_posts_verify :
    reportsOf (.valveReport 0 80 1) (closing80.onValve 80 fun v => { v with hold := .none, reopen := true })
      .valveVerify 80 = some true := by decide

/-- The copy with a TIE valve 83 beside valve 80. -/
def withTie : Topology := { town.topology with valves := town.topology.valves ++ [(83, ⟨.tie, 10, 11, 60, []⟩)] }

def adopting (t : Topology) (counter : Nat) (g : Grid) : Grid :=
  { g with engine := { g.engine with state := .maintenance, staging := some ⟨t, ⟨.feed, 63, counter, [], .write⟩⟩ } }

/-- 05 R104, 04 R64: a new valve that touches the target joins the plan of an isolation by its state, the isolation holds
it, and it is UNVERIFIED. -/
theorem test_adoption_gains_boundary :
    let t := nextOf (.adopt 0) (adopting withTie 0 (withIsos [held] town))
    (t.bind fun g => g.iso? 255).map (fun i => (i.plan.drop 3, i.stage, i.held)) =
        some ([⟨83, .boundary, none, .closed⟩], .held, some 950) ∧
      (t.bind fun g => g.valve? 83).map (fun v => (v.state, v.isos, v.unverified)) = some (.closed, [255], true) := by
  decide

/-- 02 R34, R39, R41, R42: the fourth miss loses the point, and its feed holds the smoothed value, STALE. -/
theorem test_feed_lost_at_expiry :
    ((nextOf (.pointIntervalExpiry 100) (town.onPoint 100 fun p => { p with miss := 3 })).bind fun g => g.feed? 5) =
      some { feed5 with low := 0, high := 0, input := some ⟨2750, .held⟩, stale := true } := by decide

/-! ### Witnesses: the hypotheses of each statement can be met -/

def holding (fs : List Frame) : State := { State.reset with link := { State.reset.link with holding := fs } }

theorem witness_IdleServesHolding :
    State.reset.pending = [] ∧ State.reset.link.holding = [] ∧ (holding [⟨0x05, 1, []⟩]).pending = [] ∧
      requestOf ⟨0x05, 1, []⟩ = some (.fetch 1) ∧
      (holding [⟨0x41, 9, be 2 65535 ++ be 1 3⟩]).link.holding = ⟨0x41, 9, be 2 65535 ++ be 1 3⟩ :: [] ∧
      (holding [⟨0x41, 9, be 2 0 ++ be 1 255⟩]).link.holding = ⟨0x41, 9, be 2 0 ++ be 1 255⟩ :: [] := by decide

theorem witness_EveryCommandCompletes :
    frameOf (.fetch 1) = some ⟨0x05, 1, []⟩ ∧ (0x05 : Byte) ≠ 0x04 ∧ frameOf (.restart 255) = some ⟨0x04, 255, []⟩ ∧
      Instr.runSecondsAdvance ∈ [.runSecondsAdvance, .pointIntervalExpiry 0, .orderTimeout 0] := by decide

theorem witness_ColdStartState : State.reset.pending = [] := rfl

theorem witness_FrameReceptionJudged :
    (List.replicate 240 (0 : Byte)).length ≤ 240 ∧ ([] : List Byte).length ≤ 240 ∧ State.reset.link.rx = .hunting ∧
      (∀ c ∈ ([⟨0xD5, false⟩, ⟨0xD4, true⟩] : List RxChar), c.stop = false ∨ c.data ≠ 0xD5) ∧
      ({ State.reset.link with rx := .within [0x10, 7] } : Link).rx = .within [0x10, 7] ∧
      240 < (241 : Byte).toNat :=
  ⟨Nat.le_of_eq List.length_replicate, by decide, by decide, by decide, by decide, by decide⟩

theorem witness_TransmitSendsHead :
    State.reset.link.transmit = [] ∧
      ({ State.reset.link with transmit := [⟨0x81, 1, [0]⟩] } : Link).transmit = ⟨0x81, 1, [0]⟩ :: [] := by decide

theorem witness_ClocksAdvanceAndSet :
    ({ town.engine with run := 4294967295 } : Engine).run = 4294967295 ∧ 4294967295 < 4294967296 := by decide

def noted (us rs : List Notice) : State := { at' town with link := { State.reset.link with urgent := us, routine := rs } }

theorem witness_FetchTakesHead :
    (State.reset.link.urgent = [] ∧ State.reset.link.routine = []) ∧
      (noted [⟨⟨.valve, 79⟩, 1⟩] [⟨⟨.segment, 11⟩, 1⟩]).link.NoticesSound ∧
      (town.body? true ⟨.valve, 79⟩).isSome = true ∧ (town.body? true ⟨.segment, 11⟩).isSome = true ∧
      (noted [] [⟨⟨.segment, 11⟩, 1⟩]).link.urgent = [] ∧
      ((withCalls [waitingCall 1] town).body? true ⟨.call, 1⟩).isSome = true ∧
      ((withIsos [held] town).body? true ⟨.isolation, 255⟩).isSome = true :=
  ⟨by decide, noticesSound_of (by decide), by decide, by decide, by decide, by decide, by decide⟩

def fullScreen (n : Nat) : Screen :=
  { Screen.reset 3 with enabled := true, entered := List.range n, left := List.range 1 }

theorem witness_FetchContinuesScreen :
    (noted [⟨⟨.screen, 3⟩, 6⟩] []).link.NoticesSound ∧
      ({ town with screens := [fullScreen 100] } : Grid).screen? 3 = some (fullScreen 100) ∧
      ((if (fullScreen 100).entered.length ≤ 100 then 0 else Change.screenEntered.mask) |||
        (if (fullScreen 100).left.length ≤ 100 then 0 else Change.screenLeft.mask)) = 0 ∧
      ((if (fullScreen 101).entered.length ≤ 100 then 0 else Change.screenEntered.mask) |||
        (if (fullScreen 101).left.length ≤ 100 then 0 else Change.screenLeft.mask)) = 2 :=
  ⟨noticesSound_of (by decide), by decide, by decide, by decide⟩

theorem witness_ReadAndListReturn :
    RecordKind.ofCode 9 = none ∧ RecordKind.ofCode 8 = some .engine ∧ RecordKind.ofCode 2 = some .point ∧
      town.body? false ⟨.call, 1⟩ = none ∧ (town.body? false ⟨.point, 100⟩).isSome = true ∧
      State.reset.grid.engine.state.notLoaded = true ∧ town.engine.state.notLoaded = false ∧
      town.listing 6 0 = .inl .range ∧ town.listing 4 0 = .inr town.listOutages := by decide

def shortScreen : Screen := { Screen.reset 3 with enabled := true, care := 32, required := 32 }
def watched : Grid := { town with screens := [shortScreen] }

/-- The town with its feed without an input. -/
def blind : Grid := { town with feeds := [{ feed5 with input := none }] }

theorem blind_networkSound : blind.NetworkSound := networkSound_of (by decide) (unstaged rfl)

theorem witness_RestartKeepsNetwork :
    watched.NetworkSound ∧ shortScreen ∈ watched.screens ∧ shortScreen.enabled = true ∧
      (∀ r ∈ watched.segs, r.num ∈ shortScreen.matched ↔ shortScreen.matches r = true) ∧
      ((nextOf (.restart 0) watched).bind fun g => g.feed? 5).any
        (fun f => f.presence == .present && f.input == some ⟨2750, .held⟩) ∧
      (nextOf (.restart 0) watched).any (fun g => g.engine.state.inService) ∧
      ((nextOf (.restart 0) (watched.onPoint 100 fun p => { p with smoothed := none })).bind fun g => g.feed? 5).any
        (fun f => f.input == none) :=
  ⟨networkSound_of (by decide) (unstaged rfl), by decide, by decide, by decide, by decide, by decide, by decide⟩

theorem witness_PostingPlacesEntry :
    (noted [⟨⟨.valve, 79⟩, 1⟩] [⟨⟨.segment, 11⟩, 1⟩]).link.NoticesSound ∧
      (noticed ⟨Change.segBand.record, 10⟩ (noted [] [⟨⟨.segment, 11⟩, 1⟩]).link.routine = false) ∧
      noticed ⟨Change.segBand.record, 11⟩ (noted [] [⟨⟨.segment, 11⟩, 1⟩]).link.routine = true ∧
      noticed ⟨Change.valveState.record, 79⟩ (noted [⟨⟨.valve, 79⟩, 1⟩] []).link.urgent = true :=
  ⟨noticesSound_of (by decide), by decide, by decide, by decide⟩

theorem witness_AmendTakesEffect :
    town.AtWork ∧ (inState .verifying town).engine.state = .verifying ∧
      amendValues [4, 4, 4, 4, 1, 1, 4, 1, 1] 1 (be 4 59) = some [some 59, none, none, none, none, none, none, none, none] ∧
      amendValues [4, 4, 4, 4, 1, 1, 4, 1, 1] 256 (be 1 15) =
        some [none, none, none, none, none, none, none, none, some 15] ∧
      ({ town.engine.consts with attend1 := 59 } : Constants).ok = false ∧
      ({ town.engine.consts with anomaly := 15 } : Constants).ok = true ∧
      town.seg? 11 = some segB ∧
      amendValues [2, 4, 4, 4, 2, 4] 1 (be 2 4000) = some [some 4000, none, none, none, none, none] ∧
      ({ segB.st with unitLoad := 4000 } : SegStatic).tunableOk = true ∧
      (pendingOf [none, none, some 15, none, none, none, none, none, none, none, none]).any
        (fun new => ((new.over {}).apply (pointSt .feed)).ok && (new.over {}).apply (pointSt .feed) != pointSt .feed) =
          true :=
  ⟨town_atWork, by decide, by decide, by decide, by decide, by decide, by decide, by decide, by decide, by decide⟩

theorem witness_WeatherRecomputesTrees :
    town.engine.state.notLoaded = false ∧ min 2000 1175 = town.engine.weather ∧ min 2000 65535 ≠ town.engine.weather ∧
      town.NetworkSound ∧ town.engine.state.inService = true ∧ segA ∈ town.segs ∧ segB ∈ town.segs ∧
      town.feed? 5 = some feed5 ∧ feed5.presence = .present ∧ feed5.input = some ⟨2750, .live⟩ ∧ blind.NetworkSound ∧
      (blind.feed? 5).any (fun f => f.input == none) :=
  ⟨by decide, by decide, by decide, town_networkSound, by decide, by decide, by decide, by decide, by decide, by decide,
    blind_networkSound, by decide⟩

def loadingAt (c : Cursor) : Grid :=
  { Grid.reset with engine := { Grid.reset.engine with state := .loading, staging := some ⟨town.topology, c⟩ } }

theorem witness_LoadCursorPlaces :
    TableId.ofCode 0 = some .segment ∧ 511 < TableId.segment.size ∧ Grid.reset.engine.state = .empty ∧
      (loadingAt ⟨.feed, 63, 0, [], .read⟩).engine.state = .loading ∧ TableId.ofCode 4 = none ∧
      TableId.segment.size ≤ 512 := by decide

theorem witness_LoadPartsMoveCursor :
    (∀ c : Cursor, (loadingAt c).engine.state = .loading ∧ (loadingAt c).engine.staging = some ⟨town.topology, c⟩) ∧
      ((⟨.segment, 7, 1, [], .read⟩ : Cursor).counter ≠ 0) ∧
      ((⟨.segment, 512, 0, [], .read⟩ : Cursor).counter = 0 ∧ TableId.segment.size ≤ 512) ∧
      ((⟨.segment, 511, 0, [], .read⟩ : Cursor).index < TableId.segment.size) ∧
      contentOf .segment 0 (Part.seg1 63 20000 4000).bytes = .part (.seg1 63 20000 4000) ∧
      contentOf .segment 1 (Part.seg2 0).bytes = .part (.seg2 0) ∧ contentOf .segment 0 [1] = .absent ∧
      contentOf .segment 0 (Part.seg1 64 0 0).bytes = .bad ∧
      (loadingAt ⟨.segment, 511, 0, [], .write⟩).engagedPart ⟨.segment, 511, 0, [], .write⟩ .absent = none ∧
      town.topology.partsAt .segment 511 = none ∧
      (town.topology.partsAt .segment 12).map (fun ps => ps[2]?) =
        some (some (.seg3 1900 250 50 150 none)) :=
  ⟨fun _ => ⟨rfl, rfl⟩, by decide, by decide, by decide, by decide, by decide, by decide, by decide, by decide, by decide,
    by decide⟩

theorem witness_LoadPartsMoveCursor_engaged :
    (adopting town.topology 0 town).engine.state = .maintenance ∧ town.seg? 11 = some segB ∧
      town.segEngaged segB = true ∧ contentOf .segment 0 [1] = .absent ∧ contentOf .valve 0 [1] = .absent ∧
      town.valve? 82 = some valveC ∧ valveC.hold ≠ .none ∧
      contentOf .valve 0 (Part.valve1 .tie 11 12).bytes = .part (.valve1 .tie 11 12) ∧
      valveC.st.kind ≠ .tie := by decide

theorem witness_LoadPartRoundTrip :
    (Part.valve2 86400 [0, 1023, 5, 6]).ok = true ∧ (Part.seg3 999999 99999 9999 99999 (some 767)).ok = true := by decide

theorem town_ascending : town.topology.Ascending := ascending_of (by decide)

theorem witness_LoadPartRoundTrip_put :
    town.topology.Ascending ∧ [Part.valve1 .line 10 11, .valve2 60 [81]].length = TableId.valve.parts ∧
      (∀ (k : Nat) (p : Part), [Part.valve1 .line 10 11, .valve2 60 [81]][k]? = some p → p.place = (.valve, k)) ∧
      (TableId.point, 1023) ≠ (TableId.valve, 1023) ∧ (TableId.valve, 1022) ≠ (TableId.valve, 1023) :=
  ⟨town_ascending, by decide,
    (fun k p h => match k, h with
      | 0, h => by cases h; rfl
      | 1, h => by cases h; rfl),
    by decide, by decide⟩

theorem witness_CommitBuildsTables :
    (loadingAt ⟨.feed, 64, 0, [], .write⟩).engine.state = .loading ∧ town.topology.Ascending ∧
      town.topology.invalid = none ∧
      ({ town.topology with feeds := [] } : Topology).invalid = some ⟨⟨.segment, 10⟩, .homeFeed⟩ ∧
      ({ town.topology with feeds := [] } : Topology).Fails ⟨.segment, 10⟩ .homeFeed ∧
      (⟨.feed, 0, 1, [], .write⟩ : Cursor).counter ≠ 0 ∧ town.topology.valves ≠ [] ∧
      (loadingAt ⟨.feed, 64, 0, [], .write⟩).calls = [] ∧ (loadingAt ⟨.feed, 64, 0, [], .write⟩).isos = [] ∧
      (loadingAt ⟨.feed, 64, 0, [], .write⟩).engine.consts.ok = true :=
  ⟨by decide, town_ascending, by decide, by decide, .homeFeed 10 segA.st (by decide) (by simp), by decide, by decide,
    by decide, by decide, by decide⟩

/-- The town in VERIFYING: valve 80 not reported yet, no holder anywhere. -/
def verifying : Grid := inState .verifying (town.onValve 82 fun v => { v with hold := .none, verified := true })

/-- The town in VERIFYING as a commit leaves its segments. -/
def unresolved : Grid := { verifying with segs := town.segs.map fun r => newSegment r.num r.st }

theorem witness_ForceLiveResolves :
    (inState .verifying town).engine.state = .verifying ∧ unresolved.engine.state = .verifying ∧
      unresolved.NetworkSound ∧ (∀ r ∈ unresolved.segs, r.supply = .unknown) ∧
      (nextOf (.forceLive 0) unresolved).any
        (fun g => g.feeds.any (fun f => f.input.isSome) && g.segs.any fun r => r.supply.feed? == some 5) ∧
      ((loadingAt ⟨.feed, 64, 0, [], .write⟩).committed town.topology).segs.all
        (fun r => r.supply == .unknown && r.outage == none) = true :=
  ⟨by decide, by decide, networkSound_of (by decide) (unstaged rfl), by decide, by decide, by decide⟩

theorem witness_MaintenanceEntersAndAbandons :
    town.engine.state = .live ∧ (inState .maintenance town).engine.state ≠ .live ∧
      (inState .adoptPending town).engine.state = .adoptPending := by decide

/-- The records an adoption's clauses speak of: an unreleased isolation that gains valve 83, a new valve, kept records, an
outage in OFF, a PRESENT feed with an input, and a MADE-SAFE call on a segment that goes. -/
theorem witness_AdoptReplacesOrWaits_records :
    withTie.Ascending ∧ withTie.invalid = none ∧ (withIsos [held] town).conflict withTie = none ∧
      (withIsos [held] town).iso? 255 = some held ∧ held.released = false ∧ town.valve? 83 = none ∧
      town.valve? 82 = some valveC ∧ segC.supply = .unfed ∧ segC.outage.any (fun p => p.stage == .off) ∧
      (town.feed? 5).any (fun f => f.presence == .present && f.input.isSome) ∧ town.IsosSound ∧
      (∀ c ∈ town.calls, c.state ≠ .waiting) ∧
      (withCalls [{ waitingCall 1 with state := .madeSafe }] town).WithinCapacity ∧
      (∀ c ∈ (withCalls [{ waitingCall 1 with state := .madeSafe }] town).calls, c.state ≠ .closed →
        ((withCalls [{ waitingCall 1 with state := .madeSafe }] town).seg? c.seg).isSome = true) ∧
      ∀ st, (10, st) ∉ ({ town.topology with segs := town.topology.segs.drop 1 } : Topology).segs :=
  ⟨ascending_of (by decide), by decide, by decide, by decide, by decide, by decide, by decide, by decide, by decide,
    by decide, town_isosSound, by decide, ⟨by decide, by decide, by decide⟩, by decide, fun st h => by
      simp [town, Grid.topology, segA, segB, segC, newSegment] at h⟩

theorem witness_AdoptReplacesOrWaits :
    (inState .adoptPending town).engine.state = .adoptPending ∧ town.NetworkSound ∧ town.topology.Ascending ∧
      town.Conflicts ⟨[], [], [], []⟩ ⟨.segment, 11⟩ .segmentDeleted ∧
      (adopting town.topology 0 town).engine.state = .maintenance ∧ (1 : Nat) ≠ 0 ∧
      ({ town.topology with points := [] } : Topology).invalid = some ⟨⟨.feed, 5⟩, .feedPoint⟩ ∧
      (adopting town.topology 0 town).conflict ⟨[], [], [], []⟩ = some ⟨⟨.segment, 11⟩, .segmentDeleted⟩ ∧
      (adopting town.topology 0 town).conflict town.topology = none ∧ town.ordered = [] ∧
      (adopting town.topology 0 closing80).ordered ≠ [] ∧
      (adopting town.topology 0 closing80).conflict town.topology = none :=
  ⟨rfl, town_networkSound, town_ascending, .segmentDeleted segB (by decide) (.inr (.inl (by decide))) (by simp),
    by decide, by decide, by decide, by decide, by decide, by decide, by decide, by decide⟩

/-- Point 100 with another lock state and good run. -/
def withPoint (l : LockState) (good : Nat) : Grid := town.onPoint 100 fun p => { p with lock := l, good := good }

theorem witness_SampleAdvancesPoint :
    town.engine.state.notLoaded = false ∧
      ((withPoint .seeking 2).point? 100).any (fun p => p.lock == .seeking && decide (p.good + 1 < p.st.lockCount)) ∧
      ((withPoint .seeking 3).point? 100).any (fun p => p.lock == .seeking && decide (p.st.lockCount ≤ p.good + 1)) ∧
      ((withPoint .lost 0).point? 100).any (fun p => p.lock == .lost && decide (1 < p.st.lockCount)) ∧
      (((withPoint .lost 0).onPoint 100 fun p => { p with st := { p.st with lockCount := 1 } }).point? 100).any
        (fun p => p.lock == .lost && decide (p.st.lockCount ≤ 1)) ∧
      (town.point? 100).any (fun p => p.lock == .locked && p.smoothed == some 2750 && p.pend == {}) ∧
      (town.point? 101).any (fun p => p.st.kind != .feed) ∧ town.AtWork :=
  ⟨by decide, by decide, by decide, by decide, by decide, by decide, by decide, town_atWork⟩

theorem witness_PointIntervalExpires :
    (town.point? 100).any (fun p => reached town.engine.run p.deadline) ∧
      ((town.onPoint 100 fun p => { p with deadline := 1001 }).point? 100).any
        (fun p => !reached town.engine.run p.deadline) ∧
      ((town.onPoint 100 fun p => { p with deadline := 1000, miss := 3 }).point? 100).any
        (fun p => reached town.engine.run p.deadline && p.lock == .locked && decide (p.st.lossCount ≤ p.miss + 1)) ∧
      feed5 ∈ town.feeds ∧ feed5.st.point = 100 := by decide

/-- Point 100 one miss before its loss, and not LOCKED with a substitute behaviour that awaits its next sample. -/
def nearLoss : Grid := town.onPoint 100 fun p => { p with miss := 3 }
def awaiting : Grid :=
  town.onPoint 100 fun p => { p with lock := .lost, pend := { loss := some .substitute, substitute := some 1800 } }

theorem witness_FeedFollowsPoint :
    town.engine.state.notLoaded = false ∧ town.engine.state.inService = true ∧ town.NetworkSound ∧
      (town.point? 100).any (fun p => p.st.kind == .feed && p.lock == .locked) ∧
      feed5 ∈ town.feeds ∧ feed5.st.point = 100 ∧ feed5.presence = .present ∧ (4095 : Nat) ≤ 4095 ∧
      ((nextOf (.sample 0 100 4095 0) town).bind fun g => g.point? 100).any
        (fun p => p.lock == .locked && p.smoothed.isSome) ∧
      ((nextOf (.sample 0 100 4096 0) nearLoss).bind fun g => g.point? 100).any (fun p => p.lock == .lost) ∧
      ((nextOf (.sample 0 100 4096 0) town).bind fun g => g.point? 100).any (fun p => p.lock == .locked) ∧
      (awaiting.point? 100).any (fun p => p.lock == .lost && p.pend != {}) ∧
      ((nextOf (.sample 0 100 4096 0) awaiting).bind fun g => g.point? 100).any (fun p => p.lock == .lost) ∧
      ((nextOf (.sample 0 100 4096 0) awaiting).bind fun g => g.feed? 5).any
        (fun f => f.input == some ⟨1800, .substitute⟩) ∧
      (nearLoss.point? 100).any (fun p => reached 1000 p.deadline) ∧
      ((nextOf (.pointIntervalExpiry 100) nearLoss).bind fun g => g.point? 100).any (fun p => p.lock == .lost) ∧
      ((nextOf (.pointIntervalExpiry 100) town).bind fun g => g.point? 100).any (fun p => p.lock == .locked) :=
  ⟨by decide, by decide, town_networkSound, by decide, by decide, by decide, by decide, by decide, by decide, by decide,
    by decide, by decide, by decide, by decide, by decide, by decide, by decide⟩

/-- The town with its feed STALE. -/
def stale : Grid := { town with feeds := [{ feed5 with stale := true }] }

theorem witness_AlarmAndAnomalyFollowValues :
    town.engine.state.inService = true ∧ town.NetworkSound ∧
      (town.point? 101).any (fun p => p.st.kind == .extremity && p.lock == .locked) ∧
      segB ∈ town.segs ∧ segB.st.extremity = some 101 ∧ segB.supply = .fed ⟨5, .seg 10, 80, 2⟩ ∧
      segB.est.level = some ⟨2035, 135, .low⟩ ∧ town.feed? 5 = some feed5 ∧ feed5.stale = false ∧
      stale.NetworkSound ∧ segB ∈ stale.segs ∧ (stale.feed? 5).any (fun f => f.stale) ∧
      (2035 ≤ 1885 + 150 ∧ 1885 ≤ 2035 + 150) ∧ 1884 + 150 < 2035 ∧ 2035 + 150 < 2186 :=
  ⟨by decide, town_networkSound, by decide, by decide, by decide, by decide, by decide, by decide, by decide,
    networkSound_of (by decide) (unstaged rfl), by decide, by decide, by decide, by decide, by decide⟩

theorem witness_HoldersMoveValves :
    (line 80 10 11).state = .opened ∧ (opening80.valve? 80).any (fun v => v.state == .opening) ∧
      valveC.state = .closed ∧ 255 ∈ ({ valveC with isos := [255], hold := .none } : Valve).isos ∧
      valveC.isos = [] ∧ valveC.st.kind ≠ .tie ∧ (closing80.valve? 80).any (fun v => v.state == .closing) := by decide

theorem witness_ReportVerifiesValve :
    verifying.engine.state = .verifying ∧ (verifying.valve? 80).any (fun v => v.isos == [] && !v.verified) ∧
      (verifying.valve? 82).any (fun v => v.isos == [] && v.verified && v.state == .closed) ∧
      Report.ofCode 0 = some .opened ∧ Report.ofCode 3 = some .fault ∧
      (({ verifying with valves := verifying.valves.filter fun v => v.num == 80 } : Grid).valve? 80).any
        (fun v => !v.verified) ∧
      (∀ r ∈ verifying.feeds, verifying.feedLocked r = true) := by decide

/-- ADOPT-PENDING with a copy staged, valve 80 still moving. -/
def waiting (t : Topology) : Grid :=
  { closing80 with engine := { closing80.engine with
      state := .adoptPending, staging := some ⟨t, ⟨.feed, 63, 0, [], .write⟩⟩ } }

/-- The copy without segments 11 and 12: segment 11 has an outage, so it conflicts. -/
def onlyA : Topology :=
  { town.topology with segs := town.topology.segs.take 1, valves := town.topology.valves.take 1 }

theorem waiting_networkSound : (waiting town.topology).NetworkSound ∧ (waiting onlyA).NetworkSound :=
  ⟨networkSound_of (by decide) fun _ e => by cases e; exact ⟨town_ascending, by decide⟩,
    networkSound_of (by decide) fun _ e => by cases e; exact ⟨ascending_of (by decide), by decide⟩⟩

theorem witness_ReportMovesValve :
    town.AtWork ∧ (closing80.valve? 80).any (fun v => v.state == .closing && v.hold != .none && !v.reopen) ∧
      (((closing80.onValve 80 fun v => { v with hold := .none, reopen := true })).valve? 80).any
        (fun v => v.state == .closing && v.reopen && v.free) ∧
      (opening80.valve? 80).any (fun v => v.state == .opening) ∧ (town.valve? 80).any (fun v => v.state == .opened) ∧
      (town.valve? 82).any (fun v => v.state == .closed) ∧ (stuck80.valve? 80).any (fun v => v.state == .stuck) ∧
      Report.ofCode 1 = some .closed ∧ Report.ofCode 2 = some .moving ∧
      (waiting town.topology).NetworkSound ∧ (waiting onlyA).NetworkSound ∧ (waiting onlyA).ordered ≠ [] ∧
      ((waiting town.topology).valveEvent 80 none fun r => r.report town.ctx .closed).ordered = [] ∧
      (waiting town.topology).conflict town.topology = none ∧ (waiting onlyA).conflict onlyA ≠ none :=
  ⟨town_atWork, by decide, by decide, by decide, by decide, by decide, by decide, by decide, by decide,
    waiting_networkSound.1, waiting_networkSound.2,
    by decide, by decide, by decide, by decide⟩

theorem witness_ValveCloseHolds :
    town.AtWork ∧ town.engine.state.inService = true ∧ town.IsosSound ∧ stuck80.IsosSound ∧
      (stuck80.valve? 80).any (fun v => v.state == .stuck) ∧
      (town.valve? 82).any (fun v => v.hold == .plain && v.state == .closed) ∧
      (closing80.valve? 80).any (fun v => v.hold == .plain && v.state == .closing && !v.reopen) ∧
      (town.valve? 80).any (fun v => v.state == .opened) ∧
      (town.valve? 81).any (fun v => v.hold != .plain && v.state == .closed) ∧
      (inState .adoptPending town).engine.state.inService = true ∧ (inState .adoptPending town).IsosSound ∧
      ((inState .adoptPending town).valve? 80).any (fun v => v.state == .opened) :=
  ⟨town_atWork, by decide, town_isosSound, isosSound_of (by decide), by decide, by decide, by decide, by decide, by decide,
    by decide, isosSound_of (by decide), by decide⟩

theorem witness_ValveOpenReleases :
    town.AtWork ∧ town.engine.state.inService = true ∧ town.IsosSound ∧
      (stuck80.valve? 80).any (fun v => v.state == .stuck) ∧
      (town.valve? 80).any (fun v => v.state == .opened) ∧ (opening80.valve? 80).any (fun v => v.state == .opening) ∧
      (closing80.valve? 80).any (fun v => v.state == .closing) ∧ (town.valve? 82).any (fun v => v.state == .closed) ∧
      ((inState .adoptPending town).valve? 82).any (fun v => v.state == .closed && v.isos == []) ∧
      ((town.onValve 82 fun v => { v with isos := [1] }).valve? 82).any (fun v => v.state == .closed && v.isos != []) :=
  ⟨town_atWork, by decide, town_isosSound, by decide, by decide, by decide, by decide, by decide, by decide, by decide⟩

theorem witness_ClearFaultDeclares :
    stuck80.AtWork ∧ Position.ofCode 0 = some .opened ∧ Position.ofCode 1 = some .closed ∧
      (stuck80.valve? 80).any (fun v => v.state == .stuck && v.isos == [] && v.hold == .none) ∧
      (stuck80.valve? 79).any (fun v => v.state != .stuck) ∧
      (inState .adoptPending stuck80).NetworkSound ∧ (inState .adoptPending stuck80).engine.state = .adoptPending ∧
      ((inState .adoptPending stuck80).valve? 80).any (fun v => v.state == .stuck && !v.reopen) ∧
      ((inState .adoptPending (stuck80.onValve 80 fun v => { v with hold := .plain })).valve? 80).any
        (fun v => v.state == .stuck && v.hold != .none) :=
  ⟨.inl rfl, by decide, by decide, by decide, by decide, networkSound_of (by decide) (unstaged rfl), by decide, by decide,
    by decide⟩

theorem witness_OrderTimesOut :
    town.AtWork ∧ (town.valve? 80).any (fun v => v.order == none) ∧
      (closing80.valve? 80).any (fun v => v.order.any fun o => !reached 1000 o.deadline) ∧
      opening80.AtWork ∧
      (opening80.valve? 80).any (fun v => v.state != .stuck && v.isos == [] && v.order.any fun o => reached 1000 o.deadline) ∧
      (waiting town.topology).NetworkSound ∧
      ((waiting town.topology).valve? 80).any (fun v => v.order.any fun o => reached 1060 o.deadline) ∧
      ((waiting town.topology).valveEvent 80 none fun r => r.timeOut town.ctx).ordered = [] :=
  ⟨town_atWork, by decide, by decide, .inl rfl, by decide, waiting_networkSound.1, by decide,
    by decide⟩

theorem witness_HoldAndVerifyExpire :
    town.engine.state.notLoaded = false ∧ town.IsosSound ∧ verifying.engine.state.notLoaded = false ∧
      verifying.IsosSound ∧
      ((verifying.onValve 82 fun v => { v with verifyDeadline := some 1000 }).valve? 82).any
        (fun v => v.verifyDeadline == some 1000) ∧
      (town.valve? 80).any (fun v => v.hold == .none && v.verifyDeadline == none) ∧
      (town.valve? 82).any (fun v => v.hold == .plain) ∧
      ((town.onValve 82 fun v => { v with hold := .timed 1000, verifyDeadline := some 1000 }).valve? 82).any
        (fun v => v.hold == .timed 1000 && v.verifyDeadline == some 1000 && reached 1000 1000) ∧
      reached town.engine.run 1001 = false :=
  ⟨by decide, town_isosSound, by decide, isosSound_of (by decide), by decide, by decide, by decide, by decide, by decide⟩

def oneIso (entries : List Entry) : Grid := withIsos [{ held with plan := entries }] town

/-- Isolation 255 with every valve closed, not HELD yet, and its call AWAITING-ISOLATION with a crew. -/
def aboutToHold : Grid :=
  withIsos [{ held with stage := .closing, held := none, call := some 1 }]
    (withCalls [{ waitingCall 1 with state := .awaitingIsolation, crew := some 0, iso := some 255 }] town)

theorem witness_StageFollowsEntries :
    ((oneIso held.plan).iso? 255).any (fun i => !i.released) ∧
      (∃ e ∈ [(⟨80, .boundary, none, .failed⟩ : Entry)], e.status = .failed) ∧
      ((∀ e ∈ [(⟨80, .boundary, none, .waiting⟩ : Entry)], e.status ≠ .failed) ∧
        ∃ e ∈ [(⟨80, .boundary, none, .waiting⟩ : Entry)], e.status = .waiting) ∧
      (∀ e ∈ held.plan, e.status = .closed ∨ e.status = .bypassed) ∧
      ((aboutToHold.restage 255).iso? 255).any (fun j => j.stage == .held) ∧
      (aboutToHold.iso? 255).any (fun i => !i.released && i.stage != .held && i.call == some 1) ∧
      (aboutToHold.call? 1).any (fun c => c.state == .awaitingIsolation && c.crew == some 0) ∧
      (aboutToHold.crew? 0).isSome := by decide

theorem witness_IsolateMakesPlan :
    stuck80.AtWork ∧ stuck80.NetworkSound ∧ stuck80.IsosSound ∧ stuck80.isos.length < 32 ∧
      (stuck80.seg? 11).isSome = true ∧ stuck80.isoOf 11 = none ∧
      (inState .adoptPending stuck80).engine.state = .adoptPending ∧
      (∃ c, (withCalls [{ waitingCall 1 with state := .onSite, crew := some 0 }] stuck80).call? 1 = some c ∧
        c.state = .onSite) :=
  ⟨.inl rfl, networkSound_of (by decide) (unstaged rfl), isosSound_of (by decide), by decide, by decide, by decide, rfl,
    _, rfl, rfl⟩

/-- An isolation HELD with a call ON-SITE beside it. -/
def onSite (linked : Option Nat) : Grid :=
  withIsos [{ held with call := linked }]
    (withCalls [{ waitingCall 1 with state := .onSite, crew := some 0 }, waitingCall 2] town)

theorem witness_IsolateAgainLinksCall :
    (onSite none).AtWork ∧ (onSite none).IsosSound ∧ (onSite none).seg? 11 = some segB ∧
      (onSite none).isoOf 11 = some held ∧ ((onSite none).call? 1).any (fun c => c.state == .onSite) ∧
      ((onSite none).call? 2).any (fun c => c.state != .onSite) ∧
      ((onSite (some 65535)).isoOf 11).any (fun i => i.call == some 65535) ∧
      (onSite (some 1)).IsosSound ∧ ((onSite (some 1)).isoOf 11).any (fun i => i.call == some 1) :=
  ⟨.inl rfl, isosSound_of (by decide), by decide, by decide, by decide, by decide, by decide, isosSound_of (by decide),
    by decide⟩

theorem witness_PlanEntryFollowsValve :
    (oneIso held.plan).iso? 255 = some held ∧ held.entry? 82 = some ⟨82, .boundary, none, .closed⟩ ∧
      ((withIsos [held] stuck80).valve? 80).any (fun w => w.state == .stuck && w.st.fallbacks == [81]) ∧
      (oneIso held.plan).valve? 82 = some valveC ∧ valveC.state ≠ .stuck ∧ (line 82 11 12).state ≠ .closed ∧
      (valveC.state = .closed ∧ { valveC with unverified := true }.state = .closed) ∧
      (stuck80.valve? 80).any (fun v => v.state == .stuck && ({ v with known := .closed } : Valve).state == .stuck) ∧
      (town.valve? 79).any (fun w => w.state != .stuck && w.state != .closed) ∧
      ({ held with plan := [⟨80, .boundary, none, .waiting⟩] } : Isolation).holds 81 = false ∧
      (stuck80.valve? 81).isSome ∧ [81].Nodup := by decide

theorem witness_ReleaseReturnsValves :
    (onSite (some 1)).engine.state.inService = true ∧ (onSite (some 1)).IsosSound ∧ (onSite (some 1)).WithinCapacity ∧
      (onSite (some 1)).NetworkSound ∧ ((onSite (some 1)).iso? 255).any (fun i => !i.released && i.call == some 1) ∧
      ((withIsos [{ held with released := true }] town).iso? 255).any (fun i => i.released) ∧
      ((onSite (some 1)).call? 1).isSome :=
  ⟨by decide, isosSound_of (by decide), ⟨by decide, by decide, by decide⟩, networkSound_of (by decide) (unstaged rfl), by decide,
    by decide, by decide⟩

/-- The outage of segment 11 in REPRESSURIZING, its stable count at the target. -/
def pressing : Outage := { partB with stage := .repressurizing }

theorem witness_SupplyMovesOutage :
    segB.supply ≠ .unfed ∧ segA.outage = none ∧ segB.outage = some partB ∧ partB.stage ≠ .off ∧ segC.supply = .unfed ∧
      (Supply.fed ⟨5, .seg 11, 82, 3⟩).isFed = true ∧ segC.outage.any (fun p => p.stage == .off && p.repeats == 255) ∧
      (newSegment 10 (segSt 1 0 none)).supply = .unknown ∧
      ({ segB with outage := some pressing } : Segment).band = some .low ∧ pressing.target = some 4 ∧
      4 ≤ min 15 (pressing.stable + 1) ∧ min 15 (({ pressing with stable := 2 } : Outage).stable + 1) < 4 ∧
      0 < pressing.off ∧ ({ pressing with off := 0 } : Outage).off = 0 ∧
      (town.segs.map fun x => x.num).Nodup ∧ segB ∈ town.segs ∧ segB.supply.feed? = some 5 ∧
      segC.supply.feed? ≠ some 5 ∧ (∀ x ∈ [(⟨3, true, .fault⟩ : PassChange)], x.gained = true) ∧
      (⟨4, false, .operator⟩ : PassChange).gained = false ∧
      (∀ x ∈ [((3, .present) : Nat × Presence)], x.2 ≠ .failed) := by decide

theorem witness_SupplyMovesOutage_recomputeFor :
    town.NetworkSound ∧ town.engine.state.inService = true ∧ town.feed? 5 = some feed5 ∧
      feed5.input = some ⟨2750, .live⟩ ∧ feed5.presence = .present ∧ segA ∈ town.segs ∧ segA.supply.feed? = some 5 ∧
      blind.NetworkSound ∧ blind.feed? 5 = some { feed5 with input := none } ∧
      TreeCause.restructured ∈ [TreeCause.weather, .restructured] ∧ TreeCause.restructured ∉ [TreeCause.weather] ∧
      TreeCause.weather ≠ .restructured :=
  ⟨town_networkSound, by decide, by decide, by decide, by decide, by decide, by decide, blind_networkSound, by decide,
    by decide, by decide, by decide⟩

def shortB : Segment := { segB with est := { segB.est with level := some ⟨1882, -18, .short⟩ } }

theorem witness_RelightAndSettleCounts :
    town.engine.state.inService = true ∧ town.NetworkSound ∧ town.seg? 11 = some segB ∧ segB.band ≠ some .short ∧
      shortB.band = some .short ∧ ({ town with segs := [segA, shortB, segC] } : Grid).seg? 11 = some shortB ∧
      partB.stage = .relighting ∧ min (max 1 (min 1000 299)) partB.off < partB.off ∧
      min (max 1 (min 1000 300)) partB.off = partB.off ∧ town.seg? 12 = some segC ∧
      segC.outage.any (fun p => p.stage != .relighting) ∧ town.seg? 10 = some segA ∧ segA.outage = none ∧
      segA.unrelit = 0 ∧ ({ segA with unrelit := 1 } : Segment).unrelit ≠ 0 :=
  ⟨by decide, town_networkSound, by decide, by decide, by decide, by decide, by decide, by decide, by decide, by decide,
    by decide, by decide, by decide, by decide, by decide⟩

theorem witness_CallMakesRecord :
    town.engine.state.notLoaded = false ∧ CallKind.ofCode 0 = some .escape ∧ CallKind.ofCode 1 = some .noSupply ∧
      town.seg? 10 = some segA ∧ town.mergeWith .noSupply 10 0 = none ∧ segA.outage = none ∧ town.calls.length < 256 ∧
      (∀ w ∈ ({ town with crews := [⟨1, none, .offShift, none⟩] } : Grid).crews, w.state ≠ .available) := by decide

theorem witness_CallMergesCountsOrFull :
    ((withCalls [waitingCall 65535] town).mergeWith .escape 10 7).any (fun c => c.num == 65535 && c.base == 2) ∧
      (withCalls [waitingCall 65535] town).WithinCapacity ∧ (2 ≤ max 1 (min 4 2) ∧ max 1 (min 4 0) < 2) ∧
      town.mergeWith .noSupply 11 7 = none ∧ town.seg? 11 = some segB ∧ segB.outage = some partB ∧ town.NetworkSound ∧
      256 ≤ (withCalls (List.replicate 256 (waitingCall 1)) town).calls.length ∧
      (withCalls (List.replicate 256 (waitingCall 1)) town).mergeWith .escape 10 0 = none :=
  ⟨by decide, ⟨by decide, by decide, by decide⟩, by decide, by decide, by decide, by decide, town_networkSound,
    Nat.le_of_eq List.length_replicate.symm, by decide⟩

/-- Crew 0 ASSIGNED to call 2, and call 1 WAITING. -/
def desk : Grid :=
  { withCalls [waitingCall 1, { waitingCall 2 with state := .assigned, crew := some 0 }] town with
    crews := [⟨0, some 5, .assigned, some 2⟩, ⟨1, none, .offShift, none⟩] }

theorem witness_AssignTakesCrew :
    desk.engine.state.notLoaded = false ∧ desk.call? 1 = some (waitingCall 1) ∧
      desk.crew? 0 = some ⟨0, some 5, .assigned, some 2⟩ ∧ desk.crew? 1 = some ⟨1, none, .offShift, none⟩ ∧
      (desk.call? 2).any (fun c => c.state != .waiting) ∧
      (∀ y ∈ desk.crews, y.num ≠ 0 → y.state ≠ .available) := by decide

theorem witness_CallEventsMoveCall :
    desk.engine.state.notLoaded = false ∧ desk.call? 1 = some (waitingCall 1) ∧
      (desk.call? 2).any (fun c => c.state == .assigned && c.crew == some 0) ∧ (desk.crew? 0).isSome ∧
      ((onSite none).call? 1).any (fun c => c.state == .onSite && c.crew == some 0) ∧ ((onSite none).crew? 0).isSome ∧
      (∀ x ∈ (withCalls [{ waitingCall 1 with state := .onSite, crew := some 0 }] town).calls, x.state ≠ .waiting) ∧
      ({ waitingCall 1 with state := .closed } : Call).state = .closed := by decide

theorem witness_CrewShiftsAndWithdraws :
    desk.engine.state.notLoaded = false ∧ desk.crew? 0 = some ⟨0, some 5, .assigned, some 2⟩ ∧
      desk.feed? 5 = some feed5 ∧ desk.crew? 1 = some ⟨1, none, .offShift, none⟩ ∧
      town.crew? 0 = some ⟨0, some 5, .available, none⟩ ∧ (∀ x ∈ town.calls, x.state ≠ .waiting) ∧
      (desk.call? 2).isSome ∧ (∀ y ∈ desk.crews, y.num ≠ 0 → y.state ≠ .available) ∧
      ({ town with crews := [⟨0, none, .available, none⟩] } : Grid).crew? 0 = some ⟨0, none, .available, none⟩ := by decide

theorem witness_CallDeadlineExpires :
    (withCalls [waitingCall 1] town).engine.state.notLoaded = false ∧
      (withCalls [waitingCall 1] town).call? 1 = some (waitingCall 1) ∧
      reached town.engine.run (waitingCall 1).deadline = false ∧
      (withCalls [{ waitingCall 1 with deadline := 1000 }] town).call? 1 = some { waitingCall 1 with deadline := 1000 } ∧
      reached town.engine.run 1000 = true ∧
      (∀ w ∈ ({ town with crews := [⟨1, none, .offShift, none⟩] } : Grid).crews, w.state ≠ .available) := by decide

theorem witness_DispatchServesQueue :
    (withCalls [waitingCall 1] town).queue.head? = some (waitingCall 1) ∧
      (withCalls [waitingCall 1] town).choose (waitingCall 1) = some ⟨0, some 5, .available, none⟩ ∧
      (town.crews.map fun x => x.num).Pairwise (· < ·) ∧
      ((town.seg? 10).map fun r => r.st.homeFeed) = some 5 ∧
      (∃ w ∈ (withCalls [waitingCall 1] town).crews, w.state = .available) ∧
      ((withCalls [waitingCall 1] town).calls.map fun x => x.num).Nodup ∧
      ((withCalls [waitingCall 1] town).crews.map fun x => x.num).Nodup ∧
      (∀ c ∈ (withCalls [{ waitingCall 1 with state := .closed }] town).calls, c.state ≠ .waiting) := by decide

/-- A pass gives each head its crew in turn: one crew of the home feed, two calls. -/
theorem test_dispatch_serves_head :
    (((withCalls [waitingCall 1, waitingCall 2] town).dispatchPass.call? 1).any
      fun c => c.state == .assigned && c.crew == some 0) = true := by decide

theorem witness_ScreenSetAndOff :
    town.engine.state.notLoaded = false ∧ town.screen? 15 = some (Screen.reset 15) ∧ Urgency.ofCode 0 = some .urgent ∧
      town.scopeOf 0xFFFF = some none ∧ town.scopeOf 5 = some (some 5) ∧ (Screen.reset 15).enabled = false ∧
      ({ town with screens := [fullScreen 1] } : Grid).screen? 3 = some (fullScreen 1) ∧
      (fullScreen 1).enabled = true := by decide

theorem witness_MonitorFollowsEvent :
    shortScreen ∈ (Work.start watched).grid.screens ∧ shortScreen.enabled = true ∧ (Work.start watched).adopted = false ∧
      ((Work.start watched).grid.segs.map fun r => r.num).Nodup ∧
      (∀ stg, (Work.start watched).grid.engine.staging = some stg → stg.topo.Ascending) ∧
      (∀ r ∈ watched.segs, r.num ∈ shortScreen.matched ↔ shortScreen.matches r = true) ∧
      (segB ∈ (Work.start watched).grid.segs ∧ ∀ q ∈ onlyA.segs, q.1 ≠ segB.num) :=
  ⟨by decide, by decide, by decide, by decide, fun stg e => (unstaged (g := watched) rfl stg e).1, by decide, by decide⟩

/-- Three open ESCAPE calls on segment 10, which is clustered by them. -/
theorem witness_MonitorFollowsEvent_calls :
    let g := (Work.start (withCalls [waitingCall 1, waitingCall 2, waitingCall 3] town)).finished town
    (g.calls.map fun c => c.num).Nodup ∧
      (g.call? 3).any (fun c => c.state != .madeSafe && c.state != .closed && !c.overdue && c.eff == 1) ∧
      (g.seg? 10).any (fun r => r.escapes == 3 && r.noSupply == 0 && g.engine.consts.cluster == 3) := by decide

theorem witness_PassabilityTable :
    (line 80 10 11).state = .opened ∧ valveC.state = .closed ∧
      (stuck80.valve? 80).any (fun v => v.state == .stuck && v.known == .opened) ∧
      ({ valveC with state := .stuck } : Valve).known = .closed := by decide

theorem witness_DemandProduct :
    segB.st.customers ≤ 20000 ∧ (4000 : Nat) ≤ 4000 ∧ (2000 : Nat) ≤ 2000 := by decide

theorem witness_BandTable : (-1 : Int) < 0 ∧ (0 : Int) ≤ 0 := by decide

theorem witness_RequestFrameRoundTrip :
    (Instr.amend 255 2 65535 0x7FF (List.replicate 30 255)).wellFormed = true ∧
      (frameOf (.amend 255 2 65535 0x7FF (List.replicate 30 255))).isSome = true ∧
      (Instr.call 1 255 65535 4294967295 255).wellFormed = true ∧
      (frameOf (.call 1 255 65535 4294967295 255)).isSome = true := by decide

theorem witness_StepKeepsLinkSound : State.reset.LinkSound ∧ (step State.reset = .next State.reset) :=
  ⟨⟨noticesSound_of (by decide), by decide, by decide, by decide, by decide⟩, rfl⟩

def queued : State := { at' town with pending := [.valveClose 0 80] }

theorem witness_StepKeepsTablesSound :
    queued.grid.NetworkSound ∧ queued.grid.WithinCapacity ∧ queued.grid.IsosSound ∧ queued.grid.ValvesSound ∧
      ∃ t, step queued = .next t :=
  ⟨town_networkSound, town_withinCapacity, town_isosSound, by unfold Grid.ValvesSound; decide, _, rfl⟩

/-- A call that its crew works on, and a CLOSED one whose final notice stands. -/
def working : State :=
  { at' { withCalls [{ waitingCall 1 with state := .onSite, crew := some 0 }, { waitingCall 2 with state := .closed }] town with
      crews := [⟨0, some 5, .onSite, some 1⟩] } with
    link := { State.reset.link with routine := [⟨⟨.call, 2⟩, Change.callClosed.mask⟩] } }

theorem witness_StepKeepsTablesSound_calls : queued.CallsSound ∧ working.CallsSound :=
  ⟨⟨by decide, by decide, by decide, by decide, by decide⟩, ⟨by decide, by decide, by decide,
    (fun k hk n h => by
      simp only [working, at', List.mem_singleton] at hk
      subst hk; cases h; exact ⟨_, .head _, rfl, rfl, .inr (.inl rfl)⟩), by decide⟩⟩

theorem witness_StepKeepsNetworkSound : queued.grid.NetworkSound ∧ ∃ t, step queued = .next t :=
  ⟨town_networkSound, _, rfl⟩

theorem witness_FedExactlyWhenSupplied :
    (town.valves.map fun v => v.num).Pairwise (· < ·) ∧
      11 ∈ town.segs.map (fun r => r.num) ∧ (supplyIn town.reachedSegs 11).isFed = true ∧
      supplyIn town.reachedSegs 11 = .fed ⟨5, .seg 10, 80, 2⟩ ∧
      12 ∈ town.segs.map (fun r => r.num) ∧ (supplyIn town.reachedSegs 12).isFed = false := by decide

end Sys2Proof.Tests
end

section
/-! SUPPORT. What a supply resolution reads of the records, and the network's soundness in three parts: the tables, the
orders on the valves, the supply. -/
namespace Sys2Proof.Machine

/-! ### Lists of records by their keys -/

/-- Two lists of the same keys have the same values where records of one key do. -/
theorem map_eq_of_keys {α β κ : Type} (key : α → κ) (val : α → β) :
    ∀ {l m : List α}, l.map key = m.map key → (∀ a ∈ l, ∀ b ∈ m, key a = key b → val a = val b) →
      l.map val = m.map val
  | [], [], _, _ => rfl
  | [], b :: m, h, _ => by simp at h
  | a :: l, [], h, _ => by simp at h
  | a :: l, b :: m, h, hv => by
    simp only [List.map_cons, List.cons.injEq] at h ⊢
    exact ⟨hv a (.head _) b (.head _) h.1,
      map_eq_of_keys key val h.2 fun x hx y hy => hv x (.tail _ hx) y (.tail _ hy)⟩

theorem nodup_of_ascending {l : List Nat} (h : l.Pairwise (· < ·)) : l.Nodup := h.imp Nat.ne_of_lt

/-- In a list without a number twice, the look-up of a record's number finds the record. -/
theorem find_num_of_mem {α : Type} (num : α → Nat) {l : List α} (h : (l.map num).Nodup) {b : α} (hb : b ∈ l) {n : Nat}
    (hn : num b = n) : l.find? (fun r => num r == n) = some b := by
  induction l with
  | nil => cases hb
  | cons a l ih =>
    simp only [List.map_cons, List.nodup_cons] at h
    rcases List.mem_cons.mp hb with rfl | hb
    · simp [hn]
    · have : num a ≠ n := fun e => h.1 (List.mem_map.mpr ⟨b, hb, by rw [hn, e]⟩)
      rw [List.find?_cons_of_neg (by simpa using this)]
      exact ih h.2 hb

/-! A look-up gives a record of the table, with the number asked for. -/

theorem Grid.seg?_num {g : Grid} {n : Nat} {r : Segment} (h : g.seg? n = some r) : r.num = n := by
  simpa using List.find?_some h
theorem Grid.valve?_num {g : Grid} {n : Nat} {r : Valve} (h : g.valve? n = some r) : r.num = n := by
  simpa using List.find?_some h
theorem Grid.point?_num {g : Grid} {n : Nat} {r : Point} (h : g.point? n = some r) : r.num = n := by
  simpa using List.find?_some h
theorem Grid.feed?_num {g : Grid} {n : Nat} {r : Feed} (h : g.feed? n = some r) : r.num = n := by
  simpa using List.find?_some h

theorem Grid.valve?_mem {g : Grid} {n : Nat} {r : Valve} (h : g.valve? n = some r) : r ∈ g.valves :=
  List.mem_of_find?_eq_some h

/-! ### What a resolution reads -/

/-- Number, static part and passability of a valve: what a resolution reads of it (01 R15, R16). -/
def Valve.route (v : Valve) : Nat × ValveStatic × Bool := (v.num, v.st, v.passable)

/-- Number and presence of a feed: what a resolution reads of it (01 R15). -/
def Feed.source (f : Feed) : Nat × Presence := (f.num, f.presence)

/-- Number and supply state of a segment. -/
def Segment.supplied (s : Segment) : Nat × Supply := (s.num, s.supply)

theorem any_source (feeds : List Feed) (p : Nat × Presence → Bool) :
    (feeds.any fun fd => p fd.source) = (feeds.map Feed.source).any p := by
  rw [List.any_map]; rfl

theorem feedAt_congr {fs gs : List Feed} (h : fs.map Feed.source = gs.map Feed.source) (done : Reached) (k : Nat)
    (x : Node) : feedAt fs done k x = feedAt gs done k x := by
  cases x with
  | seg m => rfl
  | feed f =>
    have hany : (fs.any fun fd => fd.num == f && fd.presence == .present) =
        gs.any fun fd => fd.num == f && fd.presence == .present :=
      (any_source fs fun x => x.1 == f && x.2 == .present).trans
        ((congrArg (List.any · _) h).trans (any_source gs fun x => x.1 == f && x.2 == .present).symm)
    simp only [feedAt, hany]

theorem linkAt_congr {g h : Grid} (hv : h.valves.map Valve.route = g.valves.map Valve.route)
    (hf : h.feeds.map Feed.source = g.feeds.map Feed.source) (done : Reached) (k seg : Nat) :
    linkAt h done k seg = linkAt g done k seg := by
  have key : ∀ r : Grid, linkAt r done k seg = (r.valves.map Valve.route).findSome? fun x =>
      if x.2.2 then (x.2.1.across seg).bind fun y => (feedAt r.feeds done k y).map fun f => ⟨f, y, x.1, k + 1⟩
      else none := by
    intro r
    rw [List.findSome?_map]
    rfl
  rw [key h, key g, hv]
  simp only [feedAt_congr hf]

theorem spread_congr {g h : Grid} (hs : h.segs.map (fun r => r.num) = g.segs.map fun r => r.num)
    (hv : h.valves.map Valve.route = g.valves.map Valve.route)
    (hf : h.feeds.map Feed.source = g.feeds.map Feed.source) (fuel k : Nat) (done : Reached) :
    spread h fuel k done = spread g fuel k done := by
  induction fuel generalizing k done with
  | zero => rfl
  | succ n ih =>
    have key : ∀ r : Grid, (r.segs.filterMap fun s =>
        if (done.lookup s.num).isSome then none else (linkAt r done k s.num).map fun l => (s.num, l)) =
        (r.segs.map fun r => r.num).filterMap fun m =>
          if (done.lookup m).isSome then none else (linkAt r done k m).map fun l => (m, l) := by
      intro r
      rw [List.filterMap_map]
      rfl
    rw [spread, spread, key h, key g, hs, ih]
    simp only [linkAt_congr hv hf]

/-- A resolution depends on the segments' numbers, the valves' routes and the feeds' presence alone. -/
theorem reachedSegs_congr {g h : Grid} (hs : h.segs.map (fun r => r.num) = g.segs.map fun r => r.num)
    (hv : h.valves.map Valve.route = g.valves.map Valve.route)
    (hf : h.feeds.map Feed.source = g.feeds.map Feed.source) : h.reachedSegs = g.reachedSegs := by
  have hl : h.segs.length = g.segs.length := by simpa using congrArg List.length hs
  unfold Grid.reachedSegs
  rw [hl, spread_congr hs hv hf]

/-! ### The network's soundness in parts -/

/-- A valve has an order exactly while it is CLOSING or OPENING (04 R68). -/
def Valve.OrderSound (v : Valve) : Prop := v.order.isSome = true ↔ v.state = .closing ∨ v.state = .opening

/-- No holder and no order (04 R75). -/
def Valve.Untouched (v : Valve) : Prop := v.isos = [] ∧ v.hold = .none ∧ v.order = none

/-- The part of `Grid.NetworkSound` that says how the tables and the staging copy are arranged. -/
structure Grid.Arranged (g : Grid) : Prop where
  segs : (g.segs.map fun r => r.num).Pairwise (· < ·)
  valves : (g.valves.map fun r => r.num).Pairwise (· < ·)
  points : (g.points.map fun r => r.num).Pairwise (· < ·)
  feeds : (g.feeds.map fun r => r.num).Pairwise (· < ·)
  crews : (g.crews.map fun r => r.num).Pairwise (· < ·)
  feedPoints : (g.feeds.map fun r => r.st.point).Nodup
  waiting : g.engine.state = .adoptPending → ∀ stg, g.engine.staging = some stg → stg.topo.invalid = none
  staged : ∀ stg, g.engine.staging = some stg → stg.topo.Ascending

/-- The part of `Grid.NetworkSound` about holders and orders. -/
structure Grid.OrdersSound (g : Grid) : Prop where
  orders : ∀ v ∈ g.valves, v.OrderSound
  verifying : g.engine.state = .verifying → ∀ v ∈ g.valves, v.Untouched

/-- In service every segment has the supply state a resolution gives (01 R16, R19). -/
def Grid.SupplyCurrent (g : Grid) : Prop :=
  g.engine.state.inService = true → ∀ s ∈ g.segs, s.supply = supplyIn g.reachedSegs s.num

theorem Grid.networkSound_iff (g : Grid) : g.NetworkSound ↔ g.Arranged ∧ g.OrdersSound ∧ g.SupplyCurrent :=
  ⟨fun h => ⟨⟨h.segs, h.valves, h.points, h.feeds, h.crews, h.feedPoints, h.waiting, h.staged⟩,
    ⟨h.orders, h.verifying⟩, h.supply⟩,
   fun ⟨a, o, s⟩ => ⟨a.segs, a.valves, a.points, a.feeds, a.crews, a.feedPoints, a.waiting, a.staged, o.orders,
    o.verifying, s⟩⟩

theorem Grid.NetworkSound.arranged {g : Grid} (h : g.NetworkSound) : g.Arranged := (g.networkSound_iff.mp h).1
theorem Grid.NetworkSound.ordersSound {g : Grid} (h : g.NetworkSound) : g.OrdersSound := (g.networkSound_iff.mp h).2.1
theorem Grid.NetworkSound.supplyCurrent {g : Grid} (h : g.NetworkSound) : g.SupplyCurrent :=
  (g.networkSound_iff.mp h).2.2

/-! ### Records that stand alike -/

/-- `h` has the engine state, the staging copy, and the records of `g`, with the supply of segments and the static part of
valves; the rest of each record may differ. -/
structure Grid.SameTables (h g : Grid) : Prop where
  state : h.engine.state = g.engine.state
  staging : h.engine.staging = g.engine.staging
  segs : h.segs.map Segment.supplied = g.segs.map Segment.supplied
  valves : (h.valves.map fun r => (r.num, r.st)) = g.valves.map fun r => (r.num, r.st)
  points : (h.points.map fun r => r.num) = g.points.map fun r => r.num
  feeds : (h.feeds.map fun r => (r.num, r.st.point)) = g.feeds.map fun r => (r.num, r.st.point)
  crews : (h.crews.map fun r => r.num) = g.crews.map fun r => r.num

/-- The same tables, with equal valves and presence. -/
structure Grid.SameNetwork (h g : Grid) : Prop extends Grid.SameTables h g where
  allValves : h.valves = g.valves
  sources : h.feeds.map Feed.source = g.feeds.map Feed.source

theorem Grid.SameTables.refl (g : Grid) : g.SameTables g := ⟨rfl, rfl, rfl, rfl, rfl, rfl, rfl⟩
theorem Grid.SameTables.trans {a b c : Grid} (h : a.SameTables b) (k : b.SameTables c) : a.SameTables c :=
  ⟨h.state.trans k.state, h.staging.trans k.staging, h.segs.trans k.segs, h.valves.trans k.valves,
    h.points.trans k.points, h.feeds.trans k.feeds, h.crews.trans k.crews⟩
theorem Grid.SameNetwork.refl (g : Grid) : g.SameNetwork g := ⟨.refl g, rfl, rfl⟩
theorem Grid.SameNetwork.trans {a b c : Grid} (h : a.SameNetwork b) (k : b.SameNetwork c) : a.SameNetwork c :=
  ⟨h.toSameTables.trans k.toSameTables, h.allValves.trans k.allValves, h.sources.trans k.sources⟩

/-- An equality of mapped lists passes on to whatever the mapped values determine. -/
theorem map_congr_of_map {α β γ : Type} {f : α → β} {l m : List α} (h : l.map f = m.map f) (k : β → γ) {f' : α → γ}
    (hf : ∀ a, f' a = k (f a)) : l.map f' = m.map f' := by
  have e := congrArg (List.map k) h
  simp only [List.map_map] at e
  rw [show f' = k ∘ f from funext hf]
  exact e

theorem Grid.SameTables.segNums {h g : Grid} (k : h.SameTables g) :
    (h.segs.map fun r => r.num) = g.segs.map fun r => r.num := map_congr_of_map k.segs (·.1) fun _ => rfl
theorem Grid.SameTables.valveNums {h g : Grid} (k : h.SameTables g) :
    (h.valves.map fun r => r.num) = g.valves.map fun r => r.num := map_congr_of_map k.valves (·.1) fun _ => rfl
theorem Grid.SameTables.feedNums {h g : Grid} (k : h.SameTables g) :
    (h.feeds.map fun r => r.num) = g.feeds.map fun r => r.num := map_congr_of_map k.feeds (·.1) fun _ => rfl

theorem Grid.SameTables.arranged {h g : Grid} (k : h.SameTables g) (a : g.Arranged) : h.Arranged where
  segs := by rw [k.segNums]; exact a.segs
  valves := by rw [k.valveNums]; exact a.valves
  points := by rw [k.points]; exact a.points
  feeds := by rw [k.feedNums]; exact a.feeds
  crews := by rw [k.crews]; exact a.crews
  feedPoints := by
    rw [map_congr_of_map (f' := fun r : Feed => r.st.point) k.feeds (·.2) fun _ => rfl]
    exact a.feedPoints
  waiting := by rw [k.state, k.staging]; exact a.waiting
  staged := by rw [k.staging]; exact a.staged

/-- Records alike, with valves and feeds that a resolution reads alike, keep a current supply. -/
theorem Grid.SameTables.supplyCurrent {h g : Grid} (k : h.SameTables g)
    (hv : h.valves.map Valve.route = g.valves.map Valve.route)
    (hf : h.feeds.map Feed.source = g.feeds.map Feed.source) (c : g.SupplyCurrent) : h.SupplyCurrent := by
  intro hs s hm
  obtain ⟨r, hr, e⟩ : ∃ r ∈ g.segs, r.supplied = s.supplied := by
    have : s.supplied ∈ g.segs.map Segment.supplied := k.segs ▸ List.mem_map_of_mem hm
    simpa using this
  obtain ⟨hn, hp⟩ : r.num = s.num ∧ r.supply = s.supply := by simpa [Segment.supplied] using e
  rw [reachedSegs_congr k.segNums hv hf, ← hn, ← hp]
  exact c (k.state ▸ hs) r hr

/-- A current supply stays current when the engine leaves service or stays in it. -/
theorem Grid.SupplyCurrent.of_eq {h g : Grid} (c : g.SupplyCurrent)
    (he : h.engine.state.inService = true → g.engine.state.inService = true) (hs : h.segs = g.segs)
    (hv : h.valves = g.valves) (hf : h.feeds = g.feeds) : h.SupplyCurrent := by
  intro hi
  rw [reachedSegs_congr (congrArg _ hs) (congrArg _ hv) (congrArg _ hf), hs]
  exact c (he hi)

/-- The same network is as sound as the other. -/
theorem Grid.SameNetwork.sound {h g : Grid} (k : h.SameNetwork g) (s : g.NetworkSound) : h.NetworkSound := by
  refine h.networkSound_iff.mpr ⟨k.arranged s.arranged, ⟨?_, ?_⟩, ?_⟩
  · rw [k.allValves]; exact s.ordersSound.orders
  · rw [k.allValves, k.state]; exact s.ordersSound.verifying
  · exact k.supplyCurrent (by rw [k.allValves]) k.sources s.supplyCurrent

/-- Records that trail others, with the same supply, are the same network. -/
theorem Grid.Trails.sameNetwork {h g : Grid} (t : h.Trails g)
    (hs : h.segs.map Segment.supplied = g.segs.map Segment.supplied) : h.SameNetwork g where
  state := by rw [t.fixed.engine]
  staging := by rw [t.fixed.engine]
  segs := hs
  valves := by rw [t.fixed.valves]
  points := by rw [t.fixed.points]
  feeds := map_congr_of_map t.feeds (fun r => (r.num, r.st.point)) fun _ => rfl
  crews := by rw [t.crews]
  allValves := t.fixed.valves
  sources := map_congr_of_map t.feeds Feed.source fun _ => rfl

end Sys2Proof.Machine
end

section
/-! SUPPORT. What the valve controller and the isolation unit do to the valves: numbers and static parts stand, orders stay on
moving valves, and a holder changes the passability of no valve that is not OPENING. -/
namespace Sys2Proof.Machine

/-! ### One valve -/

/-- `w` is `v` after some handling: the same valve, with an order exactly while it moves if that held before. -/
structure Valve.Moved (w v : Valve) : Prop where
  num : w.num = v.num
  st : w.st = v.st
  ordered : v.OrderSound → w.OrderSound

/-- Moved without a change of passability, as holders move a valve that is not OPENING. -/
structure Valve.Held (w v : Valve) : Prop extends Valve.Moved w v where
  passable : v.state ≠ .opening → w.state ≠ .opening ∧ w.passable = v.passable

theorem Valve.Moved.refl (v : Valve) : v.Moved v := ⟨rfl, rfl, id⟩
theorem Valve.Moved.trans {a b c : Valve} (h : a.Moved b) (k : b.Moved c) : a.Moved c :=
  ⟨h.num.trans k.num, h.st.trans k.st, h.ordered ∘ k.ordered⟩
theorem Valve.Held.refl (v : Valve) : v.Held v := ⟨.refl v, fun h => ⟨h, rfl⟩⟩
theorem Valve.Held.trans {a b c : Valve} (h : a.Held b) (k : b.Held c) : a.Held c :=
  ⟨h.toMoved.trans k.toMoved, fun o =>
    have hk := k.passable o
    have hh := h.passable hk.1
    ⟨hh.1, hh.2.trans hk.2⟩⟩

/-- A valve that is left moving with an order, or at rest without one. -/
theorem Valve.Moved.of_sound {w v : Valve} (hn : w.num = v.num) (hs : w.st = v.st) (h : w.OrderSound) : w.Moved v :=
  ⟨hn, hs, fun _ => h⟩

/-- Handling that leaves the state and whether there is an order. -/
theorem Valve.Moved.of_kept {w v : Valve} (hn : w.num = v.num) (hs : w.st = v.st) (ht : w.state = v.state)
    (ho : w.order = v.order) : w.Moved v :=
  ⟨hn, hs, fun h => by unfold Valve.OrderSound at h ⊢; rw [ht, ho]; exact h⟩

/-- Handling that leaves the valve at rest without an order. -/
theorem Valve.Moved.of_rest {w v : Valve} (hn : w.num = v.num) (hs : w.st = v.st) (ho : w.order = none)
    (hr : w.state = .opened ∨ w.state = .closed ∨ w.state = .stuck) : w.Moved v :=
  .of_sound hn hs (by rcases hr with hr | hr | hr <;> simp [Valve.OrderSound, ho, hr])

theorem Valve.issue_moved (c : Ctx) (t : Position) (v : Valve) : (v.issue c t).Moved v := by
  cases t <;> exact .of_sound rfl rfl (by simp [Valve.issue, Valve.OrderSound])

theorem Valve.enterStuck_moved (c : Ctx) (p : Position) (k : FaultKind) (v : Valve) : (v.enterStuck c p k).Moved v :=
  .of_rest rfl rfl rfl (.inr (.inr rfl))

theorem Valve.withHolder_state (h : Holder) (v : Valve) :
    (v.withHolder h).state = v.state ∧ (v.withHolder h).known = v.known ∧ (v.withHolder h).order = v.order ∧
      (v.withHolder h).num = v.num ∧ (v.withHolder h).st = v.st := by
  cases h <;> exact ⟨rfl, rfl, rfl, rfl, rfl⟩

theorem Valve.addHolder_held (c : Ctx) (h : Holder) (v : Valve) : (v.addHolder c h).Held v := by
  obtain ⟨hs, hk, ho, hn, ht⟩ := v.withHolder_state h
  have issued : (Valve.issue c .closed { v.withHolder h with reopen := false, uncommanded := false }).Moved v :=
    (Valve.issue_moved c .closed _).trans (.of_kept hn ht hs ho)
  have kept : ({ v.withHolder h with reopen := false, uncommanded := false } : Valve).Held v :=
    ⟨.of_kept hn ht hs ho, fun hp => ⟨hs ▸ hp, by simp only [Valve.passable, hs, hk]⟩⟩
  unfold Valve.addHolder
  cases hv : v.state with
  | opened => exact ⟨issued, fun _ => by simp [Valve.issue, Valve.passable, hv]⟩
  | opening => exact ⟨issued, fun hp => absurd hv hp⟩
  | closing => exact kept
  | closed => exact kept
  | stuck => exact kept

theorem Valve.freedByOperator_moved (c : Ctx) (v : Valve) : (v.freedByOperator c).Moved v := by
  unfold Valve.freedByOperator
  split
  · split
    · exact Valve.issue_moved _ _ _
    · exact .of_kept rfl rfl rfl rfl
    all_goals exact .refl v
  · exact .refl v

theorem Valve.dropHold_moved (c : Ctx) (v : Valve) : (v.dropHold c).Moved v :=
  (Valve.freedByOperator_moved c _).trans (.of_kept rfl rfl rfl rfl)

theorem Valve.dropIso_moved (c : Ctx) (n : Nat) (v : Valve) : (v.dropIso c n).Moved v := by
  have kept : ({ v with isos := v.isos.filter (· != n) } : Valve).Moved v := .of_kept rfl rfl rfl rfl
  unfold Valve.dropIso
  dsimp only
  split
  · exact (Valve.freedByOperator_moved c _).trans kept
  · exact kept

theorem Valve.reopenTest_moved (c : Ctx) (v : Valve) : (v.reopenTest c).Moved v := by
  unfold Valve.reopenTest
  split
  · exact Valve.issue_moved _ _ _
  · exact .refl v

/-- A report leaves the state and the order, brings a valve to rest, or, at a closing completion, may reopen it. -/
theorem Valve.report_moved (c : Ctx) (r : Report) (v : Valve) : (v.report c r).Moved v := by
  unfold Valve.report
  split
  · exact (Valve.reopenTest_moved c _).trans (.of_rest rfl rfl rfl (.inr (.inl rfl)))
  all_goals first
    | exact .of_kept rfl rfl rfl rfl
    | exact Valve.enterStuck_moved _ _ _ _
    | exact .of_rest rfl rfl rfl (.inl rfl)
    | exact .of_rest rfl rfl rfl (.inr (.inl rfl))

theorem Valve.clearFault_moved (c : Ctx) (p : Position) (v : Valve) : (v.clearFault c p).Moved v := by
  unfold Valve.clearFault
  cases p with
  | closed => exact (Valve.reopenTest_moved c _).trans (.of_rest rfl rfl rfl (.inr (.inl rfl)))
  | opened =>
    dsimp only
    split
    · exact .of_rest rfl rfl rfl (.inl rfl)
    · exact (Valve.issue_moved c _ _).trans (.of_rest rfl rfl rfl (.inl rfl))

/-! ### The records, with valves changed one by one -/

/-- The two lists have one length and `R` relates each record of the first to its counterpart in the second. -/
inductive RowByRow {α : Type} (R : α → α → Prop) : List α → List α → Prop
  | nil : RowByRow R [] []
  | cons {a b : α} {l m : List α} : R a b → RowByRow R l m → RowByRow R (a :: l) (b :: m)

/-- `h` is `g` with each valve changed as `R` allows; isolations, calls, screens and counters may differ, and of a crew all but
its number. -/
structure Grid.Reworked (R : Valve → Valve → Prop) (h g : Grid) : Prop where
  engine : h.engine = g.engine
  segs : h.segs = g.segs
  points : h.points = g.points
  feeds : h.feeds = g.feeds
  crews : (h.crews.map fun r => r.num) = g.crews.map fun r => r.num
  valves : RowByRow R h.valves g.valves

/-- `h` is `g` but for isolations, calls, screens, counters, and what crews do. -/
structure Grid.SamePlant (h g : Grid) : Prop where
  engine : h.engine = g.engine
  segs : h.segs = g.segs
  valves : h.valves = g.valves
  points : h.points = g.points
  feeds : h.feeds = g.feeds
  crews : (h.crews.map fun r => r.num) = g.crews.map fun r => r.num

theorem RowByRow.trans {α : Type} {R : α → α → Prop} (ht : ∀ a b c, R a b → R b c → R a c) :
    ∀ {l m n : List α}, RowByRow R l m → RowByRow R m n → RowByRow R l n
  | _, _, _, .nil, .nil => .nil
  | _, _, _, .cons h hs, .cons k ks => .cons (ht _ _ _ h k) (RowByRow.trans ht hs ks)

theorem RowByRow.mono {α : Type} {R S : α → α → Prop} (hrs : ∀ a b, R a b → S a b) :
    ∀ {l m : List α}, RowByRow R l m → RowByRow S l m
  | _, _, .nil => .nil
  | _, _, .cons h hs => .cons (hrs _ _ h) (RowByRow.mono hrs hs)

theorem RowByRow.of_map {α : Type} {R : α → α → Prop} {f : α → α} :
    ∀ {l : List α}, (∀ a ∈ l, R (f a) a) → RowByRow R (l.map f) l
  | [], _ => .nil
  | a :: _, h => .cons (h a (.head _)) (RowByRow.of_map fun b hb => h b (.tail _ hb))

theorem RowByRow.refl {α : Type} {R : α → α → Prop} (h : ∀ a, R a a) : ∀ l : List α, RowByRow R l l
  | [] => .nil
  | a :: l => .cons (h a) (RowByRow.refl h l)

theorem Grid.Reworked.mono {R S : Valve → Valve → Prop} (hrs : ∀ w v, R w v → S w v) {h g : Grid}
    (k : h.Reworked R g) : h.Reworked S g :=
  ⟨k.engine, k.segs, k.points, k.feeds, k.crews, k.valves.mono hrs⟩

theorem Grid.Reworked.moved {h g : Grid} (k : h.Reworked Valve.Held g) : h.Reworked Valve.Moved g :=
  k.mono fun _ _ r => r.toMoved

theorem Grid.SamePlant.refl (g : Grid) : g.SamePlant g := ⟨rfl, rfl, rfl, rfl, rfl, rfl⟩

theorem Grid.SamePlant.trans {a b c : Grid} (h : a.SamePlant b) (k : b.SamePlant c) : a.SamePlant c :=
  ⟨h.engine.trans k.engine, h.segs.trans k.segs, h.valves.trans k.valves, h.points.trans k.points,
    h.feeds.trans k.feeds, h.crews.trans k.crews⟩

theorem Grid.SamePlant.held {h g : Grid} (k : h.SamePlant g) : h.Reworked Valve.Held g :=
  ⟨k.engine, k.segs, k.points, k.feeds, k.crews, k.valves ▸ RowByRow.refl Valve.Held.refl _⟩

theorem Grid.SamePlant.sameNetwork {h g : Grid} (k : h.SamePlant g) : h.SameNetwork g :=
  ⟨⟨by rw [k.engine], by rw [k.engine], by rw [k.segs], by rw [k.valves], by rw [k.points], by rw [k.feeds], k.crews⟩,
    k.valves, by rw [k.feeds]⟩

theorem Grid.Reworked.refl (g : Grid) : g.Reworked Valve.Held g := (Grid.SamePlant.refl g).held

theorem Grid.Reworked.trans {a b c : Grid} (h : a.Reworked Valve.Held b) (k : b.Reworked Valve.Held c) :
    a.Reworked Valve.Held c :=
  ⟨h.engine.trans k.engine, h.segs.trans k.segs, h.points.trans k.points, h.feeds.trans k.feeds, h.crews.trans k.crews,
    RowByRow.trans (R := Valve.Held) (fun _ _ _ h k => h.trans k) h.valves k.valves⟩

theorem Grid.Reworked.transMoved {a b c : Grid} (h : a.Reworked Valve.Moved b) (k : b.Reworked Valve.Moved c) :
    a.Reworked Valve.Moved c :=
  ⟨h.engine.trans k.engine, h.segs.trans k.segs, h.points.trans k.points, h.feeds.trans k.feeds, h.crews.trans k.crews,
    RowByRow.trans (R := Valve.Moved) (fun _ _ _ h k => h.trans k) h.valves k.valves⟩

theorem foldl_held {α : Type} (f : Grid → α → Grid) (hf : ∀ g a, (f g a).Reworked Valve.Held g) (l : List α) (g : Grid) :
    (l.foldl f g).Reworked Valve.Held g :=
  foldl_kept (Grid.Reworked Valve.Held) Grid.Reworked.refl (fun _ _ _ => Grid.Reworked.trans) f hf l g

theorem Grid.onValve_reworked {R : Valve → Valve → Prop} (hr : ∀ v, R v v) (n : Nat) {f : Valve → Valve} {g : Grid}
    (hf : ∀ v ∈ g.valves, v.num = n → R (f v) v) : (g.onValve n f).Reworked R g := by
  refine ⟨rfl, rfl, rfl, rfl, rfl, RowByRow.of_map fun v hv => ?_⟩
  split
  · exact hf v hv ‹_›
  · exact hr v

/-! ### Calls, crews and links -/

theorem Grid.onIso_samePlant (n : Nat) (f : Isolation → Isolation) (g : Grid) : (g.onIso n f).SamePlant g :=
  ⟨rfl, rfl, rfl, rfl, rfl, rfl⟩

theorem Grid.onCall_samePlant (n : Nat) (f : Call → Call) (g : Grid) : (g.onCall n f).SamePlant g :=
  ⟨rfl, rfl, rfl, rfl, rfl, rfl⟩

/-- A change of a crew that keeps its number. -/
theorem Grid.onCrew_samePlant (n : Nat) {f : Crew → Crew} (hf : ∀ k, (f k).num = k.num) (g : Grid) :
    (g.onCrew n f).SamePlant g := by
  refine ⟨rfl, rfl, rfl, rfl, rfl, ?_⟩
  rw [Grid.onCrew_crews, List.map_map]
  refine List.map_congr_left fun k _ => ?_
  simp only [Function.comp]
  split
  · exact hf k
  · rfl

theorem Grid.unlinkIso_samePlant (n : Nat) (g : Grid) : (g.unlinkIso n).SamePlant g := ⟨rfl, rfl, rfl, rfl, rfl, rfl⟩

theorem Grid.freeCrew_samePlant (n : Option Nat) (g : Grid) : (g.freeCrew n).SamePlant g := by
  cases n with
  | none => exact .refl g
  | some n => exact g.onCrew_samePlant n (f := fun k => { k with state := .available, call := none }) fun _ => rfl

theorem Grid.makeSafe_samePlant (n : Nat) (g : Grid) : (g.makeSafe n).SamePlant g :=
  (Grid.onCall_samePlant _ _ _).trans (Grid.freeCrew_samePlant _ _)

theorem Grid.closeCall_samePlant (n : Nat) (g : Grid) : (g.closeCall n).SamePlant g :=
  ((Grid.unlinkIso_samePlant _ _).trans (Grid.onCall_samePlant _ _ _)).trans (Grid.freeCrew_samePlant _ _)

theorem Grid.heldHandOff_samePlant (c : Option Nat) (g : Grid) : (g.heldHandOff c).SamePlant g := by
  unfold Grid.heldHandOff
  split
  · split
    · exact Grid.makeSafe_samePlant _ _
    · exact .refl g
  · exact .refl g

theorem Grid.restage_samePlant (iso : Nat) (g : Grid) : (g.restage iso).SamePlant g := by
  unfold Grid.restage
  split
  · exact .refl g
  · dsimp only
    split
    · exact .refl g
    · split
      · exact (Grid.heldHandOff_samePlant _ _).trans (Grid.onIso_samePlant _ _ _)
      · exact Grid.onIso_samePlant _ _ _

theorem Grid.awaitIsolation_samePlant (iso call : Nat) (g : Grid) : (g.awaitIsolation iso call).SamePlant g := by
  unfold Grid.awaitIsolation
  dsimp only
  split
  · split
    · exact (Grid.heldHandOff_samePlant _ _).trans (Grid.onCall_samePlant _ _ _)
    · exact Grid.onCall_samePlant _ _ _
  · exact Grid.onCall_samePlant _ _ _

theorem Grid.linkCall_samePlant (iso call : Nat) (g : Grid) : (g.linkCall iso call).SamePlant g :=
  (Grid.awaitIsolation_samePlant _ _ _).trans ((Grid.onIso_samePlant _ _ _).trans (Grid.unlinkIso_samePlant _ _))

theorem Grid.releaseCall_samePlant (c : Option Nat) (g : Grid) : (g.releaseCall c).SamePlant g := by
  cases c with
  | none => exact .refl g
  | some n => exact Grid.onCall_samePlant _ _ _

/-! ### The isolation unit -/

theorem Grid.holdValve_held (iso n : Nat) (g : Grid) : (g.holdValve iso n).Reworked Valve.Held g :=
  Grid.onValve_reworked Valve.Held.refl n fun v _ _ => v.addHolder_held _ _

theorem Grid.widenBy_held (iso behind : Nat) (g : Grid) (n : Nat) : (g.widenBy iso behind n).Reworked Valve.Held g := by
  unfold Grid.widenBy
  split
  · exact .refl g
  · split
    · exact .refl g
    · split
      · exact .refl g
      · dsimp only
        split
        · exact .refl g
        · exact (Grid.onIso_samePlant _ _ _).held.trans (Grid.holdValve_held _ _ _)

theorem Grid.entryStuck_held (iso n : Nat) (g : Grid) : (g.entryStuck iso n).Reworked Valve.Held g := by
  unfold Grid.entryStuck
  split
  · exact .refl g
  · dsimp only
    split
    · exact (foldl_held _ (Grid.widenBy_held iso n) _ _).trans (Grid.onIso_samePlant _ _ _).held
    · exact (Grid.onIso_samePlant _ _ _).held

theorem Grid.takeHandOff_held (b a : Valve) (c : Option Position) (g : Grid) (iso : Nat) :
    (g.takeHandOff b a c iso).Reworked Valve.Held g := by
  unfold Grid.takeHandOff
  split
  · exact Grid.entryStuck_held _ _ _
  · split
    · exact (Grid.onIso_samePlant _ _ _).held
    · split
      · exact (Grid.onIso_samePlant _ _ _).held
      · exact .refl g
    · split
      · exact (Grid.onIso_samePlant _ _ _).held
      · exact .refl g
    · exact .refl g

theorem Grid.handToIsolations_held (b : Valve) (c : Option Position) (g : Grid) :
    (g.handToIsolations b c).Reworked Valve.Held g := by
  unfold Grid.handToIsolations
  split
  · exact .refl g
  · exact (foldl_held _ (fun g n => (g.restage_samePlant n).held) _ _).trans (foldl_held _ (Grid.takeHandOff_held _ _ _) _ _)

/-- An event on a valve moves that valve as its handler does, and others by the holders of a widening. -/
theorem Grid.valveEvent_moved (n : Nat) (c : Option Position) {f : Valve → Valve} {g : Grid}
    (hf : ∀ v ∈ g.valves, v.num = n → (f v).Moved v) : (g.valveEvent n c f).Reworked Valve.Moved g := by
  unfold Grid.valveEvent
  split
  · exact (Grid.handToIsolations_held _ _ _).moved.transMoved (Grid.onValve_reworked Valve.Moved.refl n hf)
  · exact (Grid.Reworked.refl g).moved

/-- Without a holder on any valve an event on a valve reaches no other. -/
theorem Grid.valveEvent_valves_of_no_isos (n : Nat) (c : Option Position) {f : Valve → Valve} {g : Grid}
    (hi : ∀ v ∈ (g.onValve n f).valves, v.isos = []) :
    (g.valveEvent n c f).valves = (g.onValve n f).valves ∨ (g.valveEvent n c f).valves = g.valves := by
  unfold Grid.valveEvent
  split
  · refine .inl ?_
    unfold Grid.handToIsolations
    split
    · rfl
    next after h =>
      have : after.isos = [] := hi after (List.mem_of_find?_eq_some h)
      simp only [this, List.foldl_nil]
  · exact .inr rfl

theorem Grid.settleEntry_held (iso : Nat) (g : Grid) (n : Nat) : (g.settleEntry iso n).Reworked Valve.Held g := by
  unfold Grid.settleEntry
  split
  · exact .refl g
  · split
    · exact (Grid.onIso_samePlant _ _ _).held
    · exact Grid.entryStuck_held _ _ _
    all_goals exact .refl g

theorem Grid.appendBoundary_held (iso : Nat) (ns : List Nat) (g : Grid) :
    (g.appendBoundary iso ns).Reworked Valve.Held g :=
  (foldl_held _ (Grid.settleEntry_held iso) _ _).trans
    ((foldl_held _ (fun g n => g.holdValve_held iso n) _ _).trans (Grid.onIso_samePlant _ _ _).held)

theorem Grid.makeIsolation_held (n : Nat) (g : Grid) : (g.makeIsolation n).Reworked Valve.Held g :=
  (Grid.restage_samePlant _ _).held.trans ((Grid.appendBoundary_held _ _ _).trans (Grid.SamePlant.held ⟨rfl, rfl, rfl, rfl, rfl, rfl⟩))

theorem Grid.isolate_held (n c : Nat) (g : Grid) : (g.isolate n c).Reworked Valve.Held g := by
  unfold Grid.isolate
  dsimp only
  split
  · exact Grid.makeIsolation_held _ _
  · exact (Grid.linkCall_samePlant _ _ _).held.trans (Grid.makeIsolation_held _ _)

theorem Grid.appendNewBoundary_held (g : Grid) (iso : Nat) : (g.appendNewBoundary iso).Reworked Valve.Held g := by
  unfold Grid.appendNewBoundary
  split
  · exact .refl g
  · split
    · exact .refl g
    · exact (Grid.restage_samePlant _ _).held.trans (Grid.appendBoundary_held _ _ _)

theorem Grid.dropIsos_moved (n : Nat) (plan : List Entry) (g : Grid) :
    (plan.foldl (fun g e => g.onValve e.valve (Valve.dropIso g.ctx n)) g).Reworked Valve.Moved g :=
  foldl_kept (Grid.Reworked Valve.Moved) (fun g => (Grid.Reworked.refl g).moved) (fun _ _ _ => Grid.Reworked.transMoved)
    (fun g (e : Entry) => g.onValve e.valve (Valve.dropIso g.ctx n))
    (fun g e => Grid.onValve_reworked Valve.Moved.refl e.valve fun v _ _ => v.dropIso_moved g.ctx n) plan g

theorem Grid.releaseIso_moved (i : Isolation) (g : Grid) : (g.releaseIso i).Reworked Valve.Moved g :=
  ((Grid.releaseCall_samePlant _ _).held.trans (Grid.onIso_samePlant _ _ _).held).moved.transMoved (Grid.dropIsos_moved _ _ g)

/-! ### What reworked records keep -/

theorem RowByRow.map_eq {α β : Type} {R : α → α → Prop} {f : α → β} (hf : ∀ a b, R a b → f a = f b) :
    ∀ {l m : List α}, RowByRow R l m → l.map f = m.map f
  | _, _, .nil => rfl
  | _, _, .cons h hs => by rw [List.map_cons, List.map_cons, hf _ _ h, RowByRow.map_eq hf hs]

theorem RowByRow.all_left {α : Type} {R : α → α → Prop} {P Q : α → Prop} (hp : ∀ a b, R a b → P b → Q a) :
    ∀ {l m : List α}, RowByRow R l m → (∀ b ∈ m, P b) → ∀ a ∈ l, Q a
  | _, _, .nil, _ => by simp
  | _, _, .cons h hs, hb => by
    intro a ha
    rcases List.mem_cons.mp ha with rfl | ha
    · exact hp _ _ h (hb _ (.head _))
    · exact RowByRow.all_left hp hs (fun b hm => hb b (.tail _ hm)) a ha

theorem Grid.Reworked.sameTables {h g : Grid} (k : h.Reworked Valve.Moved g) : h.SameTables g where
  state := by rw [k.engine]
  staging := by rw [k.engine]
  segs := by rw [k.segs]
  valves := RowByRow.map_eq (fun _ _ r => by rw [r.num, r.st]) k.valves
  points := by rw [k.points]
  feeds := by rw [k.feeds]
  crews := k.crews

theorem Grid.Reworked.orders {h g : Grid} (k : h.Reworked Valve.Moved g) (o : ∀ v ∈ g.valves, v.OrderSound) :
    ∀ v ∈ h.valves, v.OrderSound := RowByRow.all_left (fun _ _ r => r.ordered) k.valves o

/-- Holders on valves none of which is OPENING change no passability. -/
theorem Grid.Reworked.routes {h g : Grid} (k : h.Reworked Valve.Held g) (o : ∀ v ∈ g.valves, v.state ≠ .opening) :
    h.valves.map Valve.route = g.valves.map Valve.route := by
  have hv := k.valves
  generalize h.valves = l at hv
  generalize g.valves = m at hv o
  induction hv with
  | nil => rfl
  | cons r _ ih =>
    rw [List.map_cons, List.map_cons, ih fun v hv => o v (.tail _ hv), Valve.route, Valve.route, r.num, r.st,
      (r.passable (o _ (.head _))).2]

end Sys2Proof.Machine
end

section
/-! SUPPORT. The end of an event keeps the network sound: its resolution makes the supply current, an adoption and a completed
verification keep it so, and the recomputations, the desk and the monitor leave the network as it is. -/
namespace Sys2Proof.Machine

/-! ### Stages that leave the network as it is -/

theorem map_map_eq {α β : Type} {f : α → β} {k : α → α} {l : List α} (h : ∀ a ∈ l, f (k a) = f a) :
    (l.map k).map f = l.map f := by
  rw [List.map_map]
  exact List.map_congr_left h

theorem Work.settled_sameNetwork (w : Work) : w.settled.grid.SameNetwork w.grid :=
  w.settled_trails.sameNetwork (map_map_eq fun _ _ => rfl)

theorem Segment.endOutage_supplied (net : Sec) (n : Nat) (s : Segment) : (s.endOutage net n).supplied = s.supplied := by
  unfold Segment.endOutage
  split <;> rfl

theorem Segment.enterRelighting_supplied (net : Sec) (p : Outage) (s : Segment) :
    (s.enterRelighting net p).supplied = s.supplied := by
  unfold Segment.enterRelighting
  dsimp only
  split
  · exact Segment.endOutage_supplied _ _ _
  · rfl

theorem Segment.stableUpdate_supplied (k : Nat) (net : Sec) (b : Bool) (s : Segment) :
    (s.stableUpdate k net b).supplied = s.supplied := by
  unfold Segment.stableUpdate
  split
  · rfl
  · split
    case h_3 =>
      split
      · dsimp only
        split
        · exact Segment.enterRelighting_supplied _ _ _
        · rfl
      · rfl
    all_goals rfl

theorem Grid.recompute_sameNetwork (f : Nat) (p : Option Nat) (b : Bool) (rg : List Nat) (g : Grid) :
    (g.recompute f p b rg).SameNetwork g := by
  refine (Grid.recompute_trails f p b rg g).sameNetwork (map_map_eq fun s _ => ?_)
  split
  · exact Segment.stableUpdate_supplied _ _ _ _
  · rfl

theorem Grid.recomputeFor_sameNetwork (f : Nat) (causes : List TreeCause) (rg : List Nat) (g : Grid) :
    (g.recomputeFor f causes rg).SameNetwork g := by
  rcases g.recomputeFor_cases f causes rg with ⟨fd, i, _, _, _, _, e⟩ | ⟨fd, _, _, _, e⟩ | ⟨e, _⟩
  · rw [e]
    exact ((Grid.treeInput_trails f i.value _).sameNetwork rfl).trans (Grid.recompute_sameNetwork _ _ _ _ g)
  · rw [e]
    exact Grid.recompute_sameNetwork _ _ _ _ g
  · rw [e]
    exact .refl g

theorem Work.recomputeAll_sameNetwork (w : Work) : w.recomputeAll.grid.SameNetwork w.grid := by
  unfold Work.recomputeAll
  split
  · refine foldl_kept Grid.SameNetwork Grid.SameNetwork.refl (fun _ _ _ => Grid.SameNetwork.trans) _ (fun g f => ?_) _ _
    dsimp only
    split
    · exact .refl g
    · exact Grid.recomputeFor_sameNetwork _ _ _ g
  · exact .refl _

/-- Records that follow others, with the same supply, are the same network. -/
theorem Grid.Follows.sameNetwork {h g : Grid} (t : h.Follows g)
    (hs : h.segs.map Segment.supplied = g.segs.map Segment.supplied) : h.SameNetwork g where
  state := by rw [t.engine]
  staging := by rw [t.engine]
  segs := hs
  valves := by rw [t.valves]
  points := by rw [t.points]
  feeds := map_congr_of_map t.feeds (fun r => (r.num, r.st.point)) fun _ => rfl
  crews := map_congr_of_map t.crews (·.1) fun _ => rfl
  allValves := t.valves
  sources := map_congr_of_map t.feeds Feed.source fun _ => rfl

/-- The desk's pass and the monitor's part. -/
theorem Work.wound_sameNetwork (before : Grid) (w : Work) : (w.desk.monitored before).grid.SameNetwork w.grid := by
  refine (w.wound_follows before).sameNetwork ?_
  have hd : w.desk.grid.segs = w.grid.recount.segs := (dispatch_tables _ _).1
  calc (w.desk.monitored before).grid.segs.map Segment.supplied
      = w.desk.grid.segs.map Segment.supplied := map_map_eq fun _ _ => rfl
    _ = w.grid.segs.map Segment.supplied := by rw [hd]; exact map_map_eq fun _ _ => rfl

/-! ### A resolution makes the supply current (01 R14) -/

@[simp] theorem Segment.resolved_supplied (net : Sec) (k : Nat) (c : OutageCause) (sup : Supply) (m : Bool) (s : Segment) :
    (s.resolved net k c sup m).supplied = (s.num, sup) := by
  unfold Segment.resolved Segment.regainSupply Segment.loseSupply
  dsimp only
  repeat' split
  all_goals rfl

theorem Work.resolve_segNums (t : Trigger) (w : Work) :
    ((w.resolve t).grid.segs.map fun r => r.num) = w.grid.segs.map fun r => r.num :=
  map_congr_of_map (w.resolve_trails t).segs (·.1) fun _ => rfl

theorem Work.resolve_supplyCurrent (t : Trigger) (w : Work) : (w.resolve t).grid.SupplyCurrent := by
  intro _ s hs
  rw [reachedSegs_congr (w.resolve_segNums t) rfl rfl]
  obtain ⟨r, _, rfl⟩ := List.mem_map.mp hs
  have e := Segment.resolved_supplied w.grid.net w.grid.engine.consts.stable t.cause (supplyIn w.grid.reachedSegs r.num)
    (meshedIn w.grid w.grid.reachedSegs r.num) r
  obtain ⟨hn, hp⟩ := Prod.ext_iff.mp e
  exact hp.trans (congrArg (supplyIn w.grid.reachedSegs) hn.symm)

/-- A resolution over arranged tables with sound orders leaves the network sound. -/
theorem Work.resolve_sound (t : Trigger) {w : Work} (a : w.grid.Arranged) (o : w.grid.OrdersSound) :
    (w.resolve t).grid.NetworkSound := by
  refine (Grid.networkSound_iff _).mpr ⟨?_, ⟨o.orders, o.verifying⟩, w.resolve_supplyCurrent t⟩
  exact { a with segs := by rw [w.resolve_segNums t]; exact a.segs }

/-! ### The resolution of an event's changes -/

/-- Without a passability change every valve has the route it had. -/
theorem routes_of_no_passChanges {before after : List Valve}
    (hk : (after.map fun r => (r.num, r.st)) = before.map fun r => (r.num, r.st))
    (hn : (before.map fun r => r.num).Nodup) (h : passChanges before after = []) :
    after.map Valve.route = before.map Valve.route := by
  refine map_eq_of_keys (fun r : Valve => (r.num, r.st)) Valve.route hk fun v hv b hb e => ?_
  obtain ⟨hnum, hst⟩ := Prod.ext_iff.mp e
  have hf := List.filterMap_eq_nil_iff.mp h v hv
  rw [find_num_of_mem (fun r : Valve => r.num) hn hb hnum.symm] at hf
  have hp : b.passable = v.passable := by
    refine Classical.byContradiction fun hne => ?_
    simp [hne] at hf
  exact Prod.ext hnum (Prod.ext hst hp.symm)

/-- Without a presence change every feed has the presence it had. -/
theorem sources_of_no_presenceChanges {before after : List Feed}
    (hk : (after.map fun r => r.num) = before.map fun r => r.num)
    (hn : (before.map fun r => r.num).Nodup) (h : presenceChanges before after = []) :
    after.map Feed.source = before.map Feed.source := by
  refine map_eq_of_keys (fun r : Feed => r.num) Feed.source hk fun f hf b hb e => ?_
  have hc := List.filterMap_eq_nil_iff.mp h f hf
  rw [find_num_of_mem (fun r : Feed => r.num) hn hb e.symm] at hc
  have hp : b.presence = f.presence := by
    refine Classical.byContradiction fun hne => ?_
    simp [hne] at hc
  exact Prod.ext e hp.symm

/-- All that the resolution of an event's changes can do: resolve, or, when the event found the engine out of service or left
every passability and presence as it was, nothing. -/
theorem Work.resolveChanges_cases (before : Grid) (w : Work) :
    (∃ t, w.resolveChanges before = w.resolve t) ∨
      w.resolveChanges before = w ∧ (before.engine.state.inService = true →
        passChanges before.valves w.grid.valves = [] ∧ presenceChanges before.feeds w.grid.feeds = []) := by
  unfold Work.resolveChanges
  dsimp only
  split
  · exact .inl ⟨_, rfl⟩
  next h =>
    refine .inr ⟨rfl, fun hs => ?_⟩
    simpa [hs, List.isEmpty_iff] using h

/-- The resolution of an event that left the network sound. -/
theorem Work.resolveChanges_sound (before : Grid) {w : Work} (s : w.grid.NetworkSound) :
    (w.resolveChanges before).grid.NetworkSound := by
  rcases w.resolveChanges_cases before with ⟨t, e⟩ | ⟨e, _⟩
  · rw [e]; exact Work.resolve_sound t s.arranged s.ordersSound
  · rw [e]; exact s

/-- The resolution of an event that kept the tables and sound orders, from a sound network. -/
theorem Work.resolveChanges_sound_of_tables {before : Grid} {w : Work} (s : before.NetworkSound)
    (k : w.grid.SameTables before) (o : w.grid.OrdersSound) : (w.resolveChanges before).grid.NetworkSound := by
  have a := k.arranged s.arranged
  rcases w.resolveChanges_cases before with ⟨t, e⟩ | ⟨e, h⟩
  · rw [e]; exact Work.resolve_sound t a o
  · rw [e]
    refine (Grid.networkSound_iff _).mpr ⟨a, o, fun hs => ?_⟩
    obtain ⟨hv, hf⟩ := h (k.state ▸ hs)
    exact k.supplyCurrent (routes_of_no_passChanges k.valves (nodup_of_ascending s.valves) hv)
      (sources_of_no_presenceChanges k.feedNums (nodup_of_ascending s.feeds) hf) s.supplyCurrent hs

/-! ### Verification (09 R153) -/

theorem Work.enterLive_sound {w : Work} (a : w.grid.Arranged) (o : ∀ v ∈ w.grid.valves, v.OrderSound) :
    w.enterLive.grid.NetworkSound :=
  Work.resolve_sound .first { a with waiting := nofun } ⟨o, nofun⟩

theorem Work.verify_sound (before : Grid) {w : Work} (s : w.grid.NetworkSound) : (w.verify before).grid.NetworkSound := by
  unfold Work.verify
  split
  · exact Work.enterLive_sound s.arranged s.orders
  · exact s

/-! ### Adoption (09 R156) -/

/-- The feeds' pass of a valid copy found no point used before, nor twice. -/
theorem checkFeeds_points {t : Topology} : ∀ {fs : List (Nat × FeedStatic)} {used : List Nat}, checkFeeds t used fs = none →
    (∀ f ∈ fs, f.2.point ∉ used) ∧ (fs.map fun f => f.2.point).Nodup
  | [], _, _ => by simp
  | (n, f) :: rest, used, h => by
    simp only [checkFeeds, Option.or_eq_none_iff] at h
    obtain ⟨_, hu, hr⟩ := h
    obtain ⟨hin, hnd⟩ := checkFeeds_points hr
    have hf : f.point ∉ used := by
      intro hm
      simp [check, hm] at hu
    refine ⟨fun x hx => ?_, List.nodup_cons.mpr ⟨fun hm => ?_, hnd⟩⟩
    · rcases List.mem_cons.mp hx with rfl | hx
      · exact hf
      · exact fun hm => hin x hx (.tail _ hm)
    · obtain ⟨x, hx, e⟩ := List.mem_map.mp hm
      exact hin x hx (e ▸ .head _)

theorem Topology.feedPoints_of_valid {t : Topology} (h : t.invalid = none) : (t.feeds.map fun f => f.2.point).Nodup :=
  (checkFeeds_points (Option.or_eq_none_iff.mp h).1).2

theorem Feed.adopt_keys (points : List Point) (st : FeedStatic) (f : Feed) :
    ((f.adopt points st).num, (f.adopt points st).st) = (f.num, st) := by
  unfold Feed.adopt
  split <;> rfl

theorem Grid.replaced_arranged {t : Topology} {g : Grid} (ha : t.Ascending) (hv : t.invalid = none)
    (hc : (g.crews.map fun r => r.num).Pairwise (· < ·)) : (g.replaced t).Arranged where
  segs := by
    have e : ((g.replaced t).segs.map fun r => r.num) = t.segs.map fun r => r.1 := by
      simp only [Grid.replaced, List.map_map]
      refine List.map_congr_left fun r _ => ?_
      simp only [Function.comp]
      split
      next r h => exact (Grid.seg?_num h : r.num = _)
      next => rfl
    rw [e]; exact ha.segs
  valves := by
    have e : ((g.replaced t).valves.map fun r => r.num) = t.valves.map fun r => r.1 := by
      simp only [Grid.replaced, List.map_map]
      refine List.map_congr_left fun r _ => ?_
      simp only [Function.comp]
      split
      next r h => exact (Grid.valve?_num h : r.num = _)
      next => rfl
    rw [e]; exact ha.valves
  points := by
    have e : ((g.replaced t).points.map fun r => r.num) = t.points.map fun r => r.1 := by
      simp only [Grid.replaced, List.map_map]
      refine List.map_congr_left fun r _ => ?_
      simp only [Function.comp]
      split
      next r h => exact (Grid.point?_num h : r.num = _)
      next => rfl
    rw [e]; exact ha.points
  feeds := by
    have e : ((g.replaced t).feeds.map fun r => r.num) = t.feeds.map fun r => r.1 := by
      simp only [Grid.replaced, List.map_map]
      refine List.map_congr_left fun r _ => ?_
      simp only [Function.comp]
      split
      next f h => exact (congrArg Prod.fst (f.adopt_keys _ _)).trans (Grid.feed?_num h)
      next => rfl
    rw [e]; exact ha.feeds
  crews := hc
  feedPoints := by
    have e : ((g.replaced t).feeds.map fun r => r.st.point) = t.feeds.map fun r => r.2.point := by
      simp only [Grid.replaced, List.map_map]
      refine List.map_congr_left fun r _ => ?_
      simp only [Function.comp]
      split
      next f _ => exact congrArg FeedStatic.point (congrArg Prod.snd (f.adopt_keys _ _))
      next => rfl
    rw [e]; exact Topology.feedPoints_of_valid hv
  waiting := nofun
  staged := nofun

/-- Without an outstanding order no valve moves. -/
theorem Valve.still_of_no_order {v : Valve} (s : v.OrderSound) (h : v.order = none) :
    v.state ≠ .closing ∧ v.state ≠ .opening := by
  simpa [Valve.OrderSound, h] using s

theorem Grid.order_none_of_unordered {g : Grid} (h : g.ordered = []) :
    ∀ v ∈ g.valves, v.order = none := fun v hv => by
  have := List.filter_eq_nil_iff.mp h v hv
  simpa using this

/-- The valves an adoption leaves at rest: kept ones as they were, new ones in their normal position. -/
theorem Grid.replaced_unordered {t : Topology} {g : Grid} (o : ∀ v ∈ g.valves, v.OrderSound)
    (h : ∀ v ∈ g.valves, v.order = none) : ∀ v ∈ (g.replaced t).valves, v.OrderSound ∧ v.state ≠ .opening := by
  intro v hv
  obtain ⟨r, _, rfl⟩ := List.mem_map.mp hv
  split
  next w hw =>
    have hm := List.mem_of_find?_eq_some hw
    exact ⟨o w hm, (Valve.still_of_no_order (o w hm) (h w hm)).2⟩
  next =>
    have hrest : ∀ p : Position, p.rest ≠ .closing ∧ p.rest ≠ .opening := by intro p; cases p <;> decide
    exact ⟨by simp [Valve.OrderSound, newValve, hrest], (hrest _).2⟩

theorem Grid.closeGone_samePlant (gone : List Nat) (g : Grid) : (g.closeGone gone).SamePlant g :=
  foldl_kept Grid.SamePlant Grid.SamePlant.refl (fun _ _ _ => Grid.SamePlant.trans) _
    (fun g n => g.closeCall_samePlant n) _ g

/-- Holders gained by valves none of which is OPENING leave the network sound, in service. -/
theorem Grid.Reworked.sound_of_held {h g : Grid} (k : h.Reworked Valve.Held g) (s : g.NetworkSound)
    (hv : g.engine.state ≠ .verifying) (ho : ∀ v ∈ g.valves, v.state ≠ .opening) : h.NetworkSound :=
  h.networkSound_iff.mpr ⟨k.moved.sameTables.arranged s.arranged,
    ⟨k.moved.orders s.orders, fun e => absurd (k.engine ▸ e) hv⟩,
    k.moved.sameTables.supplyCurrent (k.routes ho) (by rw [k.feeds]) s.supplyCurrent⟩

/-- An adoption of a valid copy, with no order outstanding, leaves the network sound. -/
theorem Work.adopt_sound {t : Topology} {w : Work} (ha : t.Ascending) (hv : t.invalid = none)
    (hc : (w.grid.crews.map fun r => r.num).Pairwise (· < ·)) (o : ∀ v ∈ w.grid.valves, v.OrderSound)
    (h : ∀ v ∈ w.grid.valves, v.order = none) : (w.adopt t).grid.NetworkSound := by
  have k := Grid.closeGone_samePlant (w.grid.goneSegs t) (w.grid.replaced t)
  have hvalves : (w.replaceTables t).grid.valves = (w.grid.replaced t).valves := k.valves
  have hstate : (w.replaceTables t).grid.engine.state = .live := congrArg Engine.state k.engine
  have arr : (w.replaceTables t).grid.Arranged :=
    Grid.SameTables.arranged (g := (w.grid.replaced t).closeGone (w.grid.goneSegs t)) ⟨rfl, rfl, rfl, rfl, rfl, rfl, rfl⟩
      (k.sameNetwork.arranged (Grid.replaced_arranged ha hv hc))
  have rest := Grid.replaced_unordered (t := t) o h
  have keep := (w.replaceTables t).settled_sameNetwork
  have resolved : (((w.replaceTables t).settled).resolve .adoption).grid.NetworkSound := by
    refine Work.resolve_sound .adoption (keep.arranged arr) ⟨?_, ?_⟩
    · rw [keep.allValves, hvalves]; exact fun v hm => (rest v hm).1
    · rw [keep.state, hstate]; exact nofun
  have keep' := (((w.replaceTables t).settled).resolve .adoption).settled_sameNetwork
  refine (foldl_held Grid.appendNewBoundary Grid.appendNewBoundary_held _ _).sound_of_held (keep'.sound resolved) ?_ ?_
  · rw [keep'.state, Work.resolve_engine, keep.state, hstate]; exact nofun
  · rw [keep'.allValves, Work.resolve_valves, keep.allValves, hvalves]; exact fun v hm => (rest v hm).2

theorem Work.quiesce_sound (before : Grid) {w : Work} (s : w.grid.NetworkSound) : (w.quiesce before).grid.NetworkSound := by
  rcases w.quiesce_cases before with e | ⟨stg, hs, hst, _, ho, ⟨c, _, e⟩ | ⟨_, e⟩⟩
  · rw [e]; exact s
  · rw [e]
    exact (Grid.networkSound_iff _).mpr ⟨{ s.arranged with waiting := nofun }, ⟨s.orders, nofun⟩,
      s.supplyCurrent.of_eq (fun _ => by rw [hst]; rfl) rfl rfl rfl⟩
  · rw [e]
    exact Work.adopt_sound (s.staged stg hs) (s.waiting hst stg hs) s.crews s.orders
      (Grid.order_none_of_unordered ho)

/-! ### The whole end of an event -/

theorem Work.finished_of_resolved {before : Grid} {w : Work}
    (s : (w.settled.resolveChanges before).grid.NetworkSound) : (w.finished before).NetworkSound := by
  have settled : ∀ {w : Work}, w.grid.NetworkSound → w.settled.grid.NetworkSound := fun h =>
    (Work.settled_sameNetwork _).sound h
  have verified := Work.verify_sound before (settled (Work.quiesce_sound before (settled s)))
  have recomputed := (Work.recomputeAll_sameNetwork _).sound (settled verified)
  exact (Work.wound_sameNetwork before _).sound recomputed

/-- THE END OF AN EVENT whose own handling left the network sound. -/
theorem Work.finished_sound (before : Grid) {w : Work} (s : w.grid.NetworkSound) : (w.finished before).NetworkSound :=
  Work.finished_of_resolved (Work.resolveChanges_sound before ((Work.settled_sameNetwork w).sound s))

/-- THE END OF AN EVENT whose own handling changed valves or feeds of a sound network. -/
theorem Work.finished_sound_of_tables {before : Grid} {w : Work} (s : before.NetworkSound)
    (k : w.grid.SameTables before) (o : w.grid.OrdersSound) : (w.finished before).NetworkSound := by
  have keep := Work.settled_sameNetwork w
  refine Work.finished_of_resolved (Work.resolveChanges_sound_of_tables s (keep.toSameTables.trans k) ⟨?_, ?_⟩)
  · rw [keep.allValves]; exact o.orders
  · rw [keep.allValves, keep.state]; exact o.verifying

end Sys2Proof.Machine
end

section
/-! SUPPORT. Every command keeps the network sound: the requests of the link, the engine, the call desk, telemetry and the
valves, block by block. -/
namespace Sys2Proof.Machine

/-- A request's handling at the records keeps the network sound. -/
def KeepsNetwork (h : Grid → Served) : Prop := ∀ g, g.NetworkSound → (h g).grid.NetworkSound

/-! ### Answers -/

theorem answer_networkSound {i : Instr} {k : State → State × Reply} {s : State} (hs : s.grid.NetworkSound)
    (hk : ∀ u : State, u.grid.NetworkSound → (k u).1.grid.NetworkSound) : (answer i k s).grid.NetworkSound := by
  unfold answer
  split
  · exact hk _ (by rw [State.takeHeld_grid]; exact hs)
  · exact hs

theorem atGrid_networkSound {h : Grid → Served} (hh : KeepsNetwork h) (u : State) (hu : u.grid.NetworkSound) :
    (atGrid h u).1.grid.NetworkSound := by
  rw [atGrid_state, State.conclude_grid]
  exact hh _ hu

theorem answer_atGrid_networkSound {i : Instr} {h : Grid → Served} (hh : KeepsNetwork h) {s : State}
    (hs : s.grid.NetworkSound) : (answer i (atGrid h) s).grid.NetworkSound :=
  answer_networkSound hs (atGrid_networkSound hh)

/-! ### The engine record alone -/

/-- Records that differ in the engine record alone stay sound when the copy does and the engine enters neither VERIFYING nor
service. -/
theorem Grid.NetworkSound.withEngine {g : Grid} (s : g.NetworkSound) {e : Engine}
    (hw : e.state = .adoptPending → ∀ stg, e.staging = some stg → stg.topo.invalid = none)
    (hs : ∀ stg, e.staging = some stg → stg.topo.Ascending)
    (hv : e.state = .verifying → g.engine.state = .verifying)
    (hi : e.state.inService = true → g.engine.state.inService = true) : ({ g with engine := e } : Grid).NetworkSound :=
  (Grid.networkSound_iff _).mpr ⟨{ s.arranged with waiting := hw, staged := hs }, ⟨s.orders, fun h => s.verifying (hv h)⟩,
    s.supplyCurrent.of_eq hi rfl rfl rfl⟩

/-- The same, where neither the engine state nor the staging copy changes. -/
theorem Grid.NetworkSound.sameEngine {g : Grid} (s : g.NetworkSound) {e : Engine} (hs : e.state = g.engine.state)
    (hg : e.staging = g.engine.staging) : ({ g with engine := e } : Grid).NetworkSound :=
  Grid.SameNetwork.sound ⟨⟨hs, hg, rfl, rfl, rfl, rfl, rfl⟩, rfl, rfl⟩ s

theorem doSetClock_keeps (time : Nat) : KeepsNetwork (doSetClock time) := fun _ s => s.sameEngine rfl rfl

/-! ### FETCH, READ, LIST and the screens -/

theorem Grid.onPoint_sameNetwork (n : Nat) {f : Point → Point} (hf : ∀ p, p.num = n → (f p).num = n) (g : Grid) :
    (g.onPoint n f).SameNetwork g := by
  refine ⟨⟨rfl, rfl, rfl, rfl, map_map_eq fun p _ => ?_, rfl, rfl⟩, rfl, rfl⟩
  split
  next h => rw [hf p h, h]
  next => rfl

theorem Grid.onScreen_samePlant (n : Nat) (f : Screen → Screen) (g : Grid) : (g.onScreen n f).SamePlant g :=
  ⟨rfl, rfl, rfl, rfl, rfl, rfl⟩

theorem Grid.afterFetch_samePlant (e : Notice) (g : Grid) : (g.afterFetch e).SamePlant g := by
  unfold Grid.afterFetch
  repeat' split
  all_goals exact ⟨rfl, rfl, rfl, rfl, rfl, rfl⟩

theorem doFetch_networkSound (u : State) (hu : u.grid.NetworkSound) : (doFetch u).1.grid.NetworkSound := by
  unfold doFetch
  split
  · exact hu
  · exact (Grid.afterFetch_samePlant _ _).sameNetwork.sound hu

theorem doRead_keeps (kind number : Nat) : KeepsNetwork (doRead kind number) := by
  intro g s
  unfold doRead
  split
  · exact s
  · split
    · exact s
    · unfold Grid.afterRead
      split
      · exact Grid.SameNetwork.sound (Grid.onPoint_sameNetwork _ (fun _ h => by exact h) g) s
      · exact s

theorem doList_keeps (which argument start : Nat) : KeepsNetwork (doList which argument start) := by
  intro g s
  unfold doList
  repeat' split
  all_goals exact s

theorem doBadEvent_keeps (n : Nat) : KeepsNetwork (doBadEvent n) := by
  intro g s
  unfold doBadEvent
  repeat' split
  all_goals exact s

theorem doScreenSet_keeps (screen urgency scope care required : Nat) :
    KeepsNetwork (doScreenSet screen urgency scope care required) := by
  intro g s
  unfold doScreenSet
  repeat' split
  case h_4 => exact (Grid.onScreen_samePlant _ _ g).sameNetwork.sound s
  all_goals exact s

theorem doScreenOff_keeps (screen : Nat) : KeepsNetwork (doScreenOff screen) := by
  intro g s
  unfold doScreenOff
  split
  · exact s
  · split
    · exact s
    · split
      · exact (Grid.onScreen_samePlant _ _ g).sameNetwork.sound s
      · exact s

/-! ### RESTART (09 R160) -/

theorem Feed.restart_keys (points : List Point) (f : Feed) :
    ((f.restart points).num, (f.restart points).st, (f.restart points).presence) = (f.num, f.st, f.presence) := by
  unfold Feed.restart
  split <;> rfl

theorem Work.restartTelemetry_sameNetwork (w : Work) : w.restartTelemetry.grid.SameNetwork w.grid where
  state := rfl
  staging := rfl
  segs := rfl
  valves := rfl
  points := map_map_eq fun _ _ => rfl
  feeds := map_map_eq fun f _ =>
    congrArg (fun k : Nat × FeedStatic × Presence => (k.1, k.2.1.point)) (Feed.restart_keys _ f)
  crews := rfl
  allValves := rfl
  sources := map_map_eq fun f _ =>
    congrArg (fun k : Nat × FeedStatic × Presence => (k.1, k.2.2)) (Feed.restart_keys _ f)

theorem Grid.monitorRestart_sameNetwork (g : Grid) : g.monitorRestart.SameNetwork g :=
  ⟨⟨rfl, rfl, map_map_eq fun _ _ => rfl, rfl, rfl, rfl, rfl⟩, rfl, rfl⟩

theorem EngineState.restarted_ne_adoptPending (e : EngineState) : e.restarted ≠ .adoptPending := by cases e <;> decide
theorem EngineState.restarted_verifying {e : EngineState} (h : e.restarted = .verifying) : e = .verifying := by
  cases e <;> first | rfl | cases h
theorem EngineState.restarted_inService (e : EngineState) : e.restarted.inService = e.inService := by cases e <;> rfl

theorem Grid.restarted_sound {g : Grid} (s : g.NetworkSound) : g.restarted.NetworkSound := by
  have base : ({ g with
      engine := { g.engine with state := g.engine.state.restarted, staging := none }
      calls := g.calls.filter fun c => c.state != .closed
      isos := g.isos.filter fun i => !i.released } : Grid).NetworkSound :=
    Grid.SameNetwork.sound
      (g := { g with engine := { g.engine with state := g.engine.state.restarted, staging := none } })
      ⟨⟨rfl, rfl, rfl, rfl, rfl, rfl, rfl⟩, rfl, rfl⟩
      (s.withEngine (e := { g.engine with state := g.engine.state.restarted, staging := none })
        (fun h => absurd h (EngineState.restarted_ne_adoptPending _)) nofun EngineState.restarted_verifying
        (fun h => (EngineState.restarted_inService _).symm.trans h))
  exact (((Grid.monitorRestart_sameNetwork _).trans (Work.recomputeAll_sameNetwork _)).trans
    (Work.restartTelemetry_sameNetwork _)).sound base

/-! ### The staging copy (09 section 9.2) -/

theorem mem_insertBy {α : Type} (key : α → Nat) (x a : α) (l : List α) : a ∈ insertBy key x l ↔ a = x ∨ a ∈ l := by
  induction l with
  | nil => simp [insertBy]
  | cons y ys ih =>
    unfold insertBy
    split
    · simp
    · simp only [List.mem_cons, ih]
      exact or_left_comm

/-- A record of a new number goes to its place in an ascending table. -/
theorem insertBy_ascending {α : Type} (key : α → Nat) (x : α) {l : List α} (h : (l.map key).Pairwise (· < ·))
    (hx : ∀ y ∈ l, key y ≠ key x) : ((insertBy key x l).map key).Pairwise (· < ·) := by
  induction l with
  | nil => simp [insertBy]
  | cons y ys ih =>
    simp only [List.map_cons, List.pairwise_cons, List.mem_map, forall_exists_index, and_imp,
      forall_apply_eq_imp_iff₂] at h
    obtain ⟨hy, hys⟩ := h
    have hne := hx y (.head _)
    unfold insertBy
    split
    next hle =>
      have hlt : key x < key y := by omega
      simp only [List.map_cons, List.pairwise_cons, List.mem_cons, List.mem_map]
      refine ⟨?_, ?_, hys⟩
      · rintro _ (rfl | ⟨z, hz, rfl⟩)
        · exact hlt
        · exact Nat.lt_trans hlt (hy z hz)
      · rintro _ ⟨z, hz, rfl⟩
        exact hy z hz
    next hle =>
      simp only [List.map_cons, List.pairwise_cons, List.mem_map, forall_exists_index, and_imp,
        forall_apply_eq_imp_iff₂, mem_insertBy]
      refine ⟨?_, ih hys fun z hz => hx z (.tail _ hz)⟩
      rintro z (rfl | hz)
      · omega
      · exact hy z hz

theorem dropKey_ascending {α : Type} (n : Nat) {l : List (Nat × α)} (h : (l.map fun r => r.1).Pairwise (· < ·)) :
    ((dropKey n l).map fun r => r.1).Pairwise (· < ·) := h.sublist (List.filter_sublist.map _)

theorem putKey_ascending {α : Type} (n : Nat) (x : α) {l : List (Nat × α)}
    (h : (l.map fun r => r.1).Pairwise (· < ·)) : ((putKey n x l).map fun r => r.1).Pairwise (· < ·) :=
  insertBy_ascending _ _ (dropKey_ascending n h) fun _ hy => by simpa using (List.mem_filter.mp hy).2

theorem Topology.empty_ascending : Topology.empty.Ascending := ⟨.nil, .nil, .nil, .nil⟩

theorem Topology.delete_ascending {t : Topology} (h : t.Ascending) (table : TableId) (n : Nat) :
    (t.delete table n).Ascending := by
  cases table
  · exact { h with segs := dropKey_ascending n h.segs }
  · exact { h with valves := dropKey_ascending n h.valves }
  · exact { h with points := dropKey_ascending n h.points }
  · exact { h with feeds := dropKey_ascending n h.feeds }

theorem Topology.put_ascending {t : Topology} (h : t.Ascending) (n : Nat) (ps : List Part) : (t.put n ps).Ascending := by
  unfold Topology.put
  split
  · exact { h with segs := putKey_ascending n _ h.segs }
  · exact { h with valves := putKey_ascending n _ h.valves }
  · exact { h with points := putKey_ascending n _ h.points }
  · exact { h with feeds := putKey_ascending n _ h.feeds }
  · exact h

theorem Staging.written_ascending {stg : Staging} (h : stg.topo.Ascending) (p : Part) : (stg.written p).topo.Ascending := by
  unfold Staging.written
  dsimp only
  split
  · exact Topology.put_ascending h _ _
  · exact h

theorem Grid.NetworkSound.staged_ascending {g : Grid} (s : g.NetworkSound) : g.staged.topo.Ascending := by
  unfold Grid.staged
  cases h : g.engine.staging with
  | none => exact Topology.empty_ascending
  | some stg => exact s.staged stg h

/-- Outside ADOPT-PENDING a staging copy in ascending numbers may replace the present one. -/
theorem Grid.NetworkSound.withStaging {g : Grid} (s : g.NetworkSound) (ha : g.engine.state ≠ .adoptPending)
    {stg : Staging} (h : stg.topo.Ascending) : ({ g with engine := g.withStaging stg } : Grid).NetworkSound :=
  s.withEngine (fun e => absurd e ha) (fun _ e => by cases e; exact h) id id

theorem EngineState.ne_adoptPending_of_load {e : EngineState} (h : e.refusesLoad = none) : e ≠ .adoptPending := by
  rintro rfl
  cases h

theorem doLoadCursor_keeps (table index : Nat) : KeepsNetwork (doLoadCursor table index) := by
  intro g s
  have reloaded : ∀ c : Cursor, g.engine.state ≠ .adoptPending →
      ({ g with engine := g.withStaging ⟨g.staged.topo, c⟩ } : Grid).NetworkSound := fun c ha =>
    s.withStaging ha s.staged_ascending
  unfold doLoadCursor
  split
  iterate 3 exact s
  · split
    · split
      · exact s
      · exact s.withEngine nofun (fun _ e => by cases e; exact Topology.empty_ascending) nofun nofun
    · exact s
  all_goals
    split
    · split
      · exact s
      · exact reloaded _ (by rw [‹g.engine.state = _›]; exact nofun)
    · exact s

theorem doLoadPart_keeps (content : List Byte) : KeepsNetwork (doLoadPart content) := by
  intro g s
  unfold doLoadPart
  split
  · exact s
  next hl =>
    have ha := EngineState.ne_adoptPending_of_load hl
    dsimp only
    repeat' split
    case h_3 => exact s.withStaging ha (Topology.delete_ascending s.staged_ascending _ _)
    case h_4 => exact s.withStaging ha (Staging.written_ascending s.staged_ascending _)
    all_goals exact s

theorem doLoadRead_keeps : KeepsNetwork doLoadRead := by
  intro g s
  unfold doLoadRead
  split
  · exact s
  next hl =>
    have ha := EngineState.ne_adoptPending_of_load hl
    dsimp only
    repeat' split
    case h_1 => exact s.withStaging ha s.staged_ascending
    case h_2 => exact s.withStaging ha s.staged_ascending
    all_goals exact s

/-! ### Commit, entry to LIVE, maintenance and adoption -/

theorem Grid.committed_sound {t : Topology} (g : Grid) (ha : t.Ascending) (hv : t.invalid = none) :
    (g.committed t).NetworkSound := by
  have rest : ∀ v ∈ (g.committed t).valves, v.order = none ∧ v.Untouched ∧ v.state ≠ .closing ∧ v.state ≠ .opening := by
    intro v hv
    obtain ⟨r, _, rfl⟩ := List.mem_map.mp hv
    have hrest : ∀ p : Position, p.rest ≠ .closing ∧ p.rest ≠ .opening := by intro p; cases p <;> decide
    exact ⟨rfl, ⟨rfl, rfl, rfl⟩, hrest _⟩
  refine (Grid.networkSound_iff _).mpr ⟨⟨?_, ?_, ?_, ?_, ?_, ?_, nofun, nofun⟩, ⟨fun v hm => ?_, fun _ v hm => (rest v hm).2.1⟩,
    nofun⟩
  · rw [show ((g.committed t).segs.map fun r => r.num) = t.segs.map fun r => r.1 by simp [Grid.committed, newSegment]]
    exact ha.segs
  · rw [show ((g.committed t).valves.map fun r => r.num) = t.valves.map fun r => r.1 by simp [Grid.committed, newValve]]
    exact ha.valves
  · rw [show ((g.committed t).points.map fun r => r.num) = t.points.map fun r => r.1 by simp [Grid.committed, newPoint]]
    exact ha.points
  · rw [show ((g.committed t).feeds.map fun r => r.num) = t.feeds.map fun r => r.1 by simp [Grid.committed, newFeed]]
    exact ha.feeds
  · rw [show ((g.committed t).crews.map fun r => r.num) = List.range Config.crews by
      simp only [Grid.committed, List.map_map]
      exact List.map_id _]
    exact List.pairwise_lt_range
  · rw [show ((g.committed t).feeds.map fun r => r.st.point) = t.feeds.map fun r => r.2.point by
      simp [Grid.committed, newFeed]]
    exact Topology.feedPoints_of_valid hv
  · obtain ⟨ho, _, hc, hp⟩ := rest v hm
    simp [Valve.OrderSound, ho, hc, hp]

theorem doCommit_keeps : KeepsNetwork doCommit := by
  intro g s
  unfold doCommit
  split
  · exact s
  · split
    · exact s
    · split
      · exact s
      next hv => exact Work.finished_sound g (g.committed_sound s.staged_ascending hv)

theorem Valve.forceNormal_rest {v : Valve} (h : v.order = none) (s : v.OrderSound) : v.forceNormal.OrderSound := by
  unfold Valve.forceNormal
  split
  · exact s
  · cases v.st.normal <;> simp [Valve.OrderSound, h, Position.rest]

theorem doForceLive_keeps : KeepsNetwork doForceLive := by
  intro g s
  unfold doForceLive
  split
  · exact s
  next hv =>
    have hv : g.engine.state = .verifying := Classical.not_not.mp hv
    refine Work.finished_sound g (Work.enterLive_sound ?_ ?_)
    · refine { s.arranged with valves := ?_ }
      have e : ((g.valves.map Valve.forceNormal).map fun r => r.num) = g.valves.map fun r => r.num :=
        map_map_eq fun v _ => by unfold Valve.forceNormal; split <;> rfl
      exact e ▸ s.valves
    · intro v hm
      obtain ⟨u, hu, rfl⟩ := List.mem_map.mp hm
      exact Valve.forceNormal_rest (s.verifying hv u hu).2.2 (s.orders u hu)

theorem Grid.topology_ascending {g : Grid} (a : g.Arranged) : g.topology.Ascending :=
  ⟨by simpa [Grid.topology, Function.comp_def] using a.segs, by simpa [Grid.topology, Function.comp_def] using a.valves,
    by simpa [Grid.topology, Function.comp_def] using a.points, by simpa [Grid.topology, Function.comp_def] using a.feeds⟩

theorem doEnterMaintenance_keeps : KeepsNetwork doEnterMaintenance := by
  intro g s
  unfold doEnterMaintenance
  split
  · exact s
  next hl =>
    have hl : g.engine.state = .live := Classical.not_not.mp hl
    exact s.withEngine nofun (fun _ e => by cases e; exact Grid.topology_ascending s.arranged) nofun
      fun _ => by rw [hl]; rfl

theorem doAbandon_keeps : KeepsNetwork doAbandon := by
  intro g s
  unfold doAbandon
  split
  case h_1 h => exact s.withEngine nofun nofun nofun fun _ => by rw [h]; rfl
  case h_2 h => exact s.withEngine nofun nofun nofun fun _ => by rw [h]; rfl
  all_goals exact s

theorem doAdopt_keeps : KeepsNetwork doAdopt := by
  intro g s
  unfold doAdopt
  split
  case h_1 hm =>
    split
    · exact s
    · split
      · exact s
      next hv =>
        split
        · exact s
        · split
          next ho =>
            exact Work.finished_sound g (Work.adopt_sound s.staged_ascending hv s.crews s.orders
              (Grid.order_none_of_unordered (List.isEmpty_iff.mp ho)))
          next =>
            refine s.withEngine (fun _ stg e => ?_) (fun stg e => s.staged stg e) nofun fun _ => by rw [hm]; rfl
            have : g.staged = stg := by unfold Grid.staged; rw [show g.engine.staging = some stg from e]; rfl
            exact this ▸ hv
  all_goals exact s

/-! ### AMEND and WEATHER -/

theorem Work.reachSeg_grid (n : Nat) (c : TreeCause) (w : Work) : (w.reachSeg n c).grid = w.grid := by
  unfold Work.reachSeg
  split <;> rfl

theorem Grid.onSeg_sameNetwork (n : Nat) {f : Segment → Segment} (hf : ∀ r, (f r).supplied = r.supplied) (g : Grid) :
    (g.onSeg n f).SameNetwork g := by
  refine ⟨⟨rfl, rfl, map_map_eq fun r _ => ?_, rfl, rfl, rfl, rfl⟩, rfl, rfl⟩
  split
  · exact hf r
  · rfl

theorem amendSegment_keeps (r : Segment) (vs : List (Option Nat)) : KeepsNetwork (amendSegment r vs) := by
  intro g s
  unfold amendSegment
  dsimp only
  split
  · exact s
  · split
    · exact s
    · refine Work.finished_sound g (Grid.SameNetwork.sound (g := g) ?_ s)
      have e : ((Work.start g).amendSeg r (r.st.amended vs)).grid =
          g.onSeg r.num fun q => { q with st := r.st.amended vs } := by
        unfold Work.amendSeg
        dsimp only
        split
        · rfl
        · exact Work.reachSeg_grid _ _ _
      rw [e]
      exact Grid.onSeg_sameNetwork r.num (fun _ => by rfl) g

theorem amendPoint_keeps (p : Point) (vs : List (Option Nat)) : KeepsNetwork (amendPoint p vs) := by
  intro g s
  unfold amendPoint
  split
  · exact s
  · dsimp only
    split
    · exact s
    · split
      · exact s
      · exact Grid.SameNetwork.sound (Grid.onPoint_sameNetwork _ (fun _ h => by exact h) g) s

theorem amendEngine_keeps (vs : List (Option Nat)) : KeepsNetwork (amendEngine vs) := by
  intro g s
  unfold amendEngine
  dsimp only
  split
  · exact s
  · split
    · exact s
    · exact Work.finished_sound g (s.sameEngine rfl rfl)

theorem withAmended_networkSound {kind : RecordKind} {mask : Nat} {values : List Byte} {g : Grid} (s : g.NetworkSound)
    {k : List (Option Nat) → Served} (hk : ∀ vs, (k vs).grid.NetworkSound) :
    (withAmended kind mask values g k).grid.NetworkSound := by
  unfold withAmended
  split
  · exact hk _
  · exact s

theorem doAmend_keeps (kind number mask : Nat) (values : List Byte) : KeepsNetwork (doAmend kind number mask values) := by
  intro g s
  unfold doAmend
  split
  case h_5 =>
    split
    · exact withAmended_networkSound s fun vs => amendSegment_keeps _ vs g s
    · exact s
  case h_6 =>
    split
    · exact withAmended_networkSound s fun vs => amendPoint_keeps _ vs g s
    · exact s
  case h_7 =>
    split
    · exact withAmended_networkSound s fun vs => amendEngine_keeps vs g s
    · exact s
  all_goals exact s

theorem doWeather_keeps (factor : Nat) : KeepsNetwork (doWeather factor) := by
  intro g s
  unfold doWeather
  split
  · exact s
  · dsimp only
    split
    · exact s
    · exact Work.finished_sound g (s.sameEngine rfl rfl)

/-! ### The call desk (07) -/

/-- An event whose own handling leaves segments, valves, points and feeds. -/
theorem Grid.SamePlant.finished_sound {g : Grid} {w : Work} (k : w.grid.SamePlant g) (s : g.NetworkSound) :
    (w.finished g).NetworkSound := Work.finished_sound g (k.sameNetwork.sound s)

theorem mergeCall_keeps (c : Call) (grade : Nat) : KeepsNetwork (mergeCall c grade) := fun g s =>
  (Grid.onCall_samePlant c.num _ g).finished_sound s

theorem reportNoSupply_keeps (segment grade : Nat) : KeepsNetwork (reportNoSupply segment grade) := fun g s =>
  Work.finished_sound g ((Grid.onSeg_sameNetwork segment (f := Segment.countReport) (fun _ => rfl) g).sound s)

theorem makeCall_keeps (kind : CallKind) (segment key grade : Nat) : KeepsNetwork (makeCall kind segment key grade) := by
  intro g s
  unfold makeCall
  split
  · exact s
  · exact Grid.SamePlant.finished_sound (g := g) ⟨rfl, rfl, rfl, rfl, rfl, rfl⟩ s

theorem doCall_keeps (kind segment key grade : Nat) : KeepsNetwork (doCall kind segment key grade) := by
  intro g s
  unfold doCall
  split
  · exact s
  · split
    · exact s
    · exact s
    · split
      · exact mergeCall_keeps _ _ g s
      · split
        · exact reportNoSupply_keeps _ _ g s
        · exact makeCall_keeps _ _ _ _ g s

theorem Grid.handOut_samePlant (call crew : Nat) (g : Grid) : (g.handOut call crew).SamePlant g :=
  (Grid.onCrew_samePlant crew (f := fun k => { k with state := .assigned, call := some call }) (fun _ => rfl) _).trans
    (Grid.onCall_samePlant _ _ g)

theorem Grid.takeCrew_samePlant (k : Crew) (g : Grid) : (g.takeCrew k).SamePlant g := by
  unfold Grid.takeCrew
  split
  · exact Grid.onCall_samePlant _ _ g
  · exact .refl g

theorem doAssign_keeps (call crew : Nat) : KeepsNetwork (doAssign call crew) := by
  intro g s
  unfold doAssign
  split
  · exact s
  · split
    · split
      · exact s
      · split
        · exact s
        · exact ((Grid.handOut_samePlant _ _ _).trans (Grid.takeCrew_samePlant _ g)).finished_sound s
    · exact s

theorem callEvent_keeps (call : Nat) (t : CallState → Bool) {f : Grid → Grid} (hf : ∀ g, (f g).SamePlant g) :
    KeepsNetwork (callEvent call t f) := by
  intro g s
  unfold callEvent
  split
  · exact s
  · split
    · exact s
    · split
      · exact (hf g).finished_sound s
      · exact s

theorem Grid.arrive_samePlant (call : Nat) (g : Grid) : (g.arrive call).SamePlant g := by
  refine (Grid.onCall_samePlant _ _ _).trans ?_
  unfold Grid.crewOnSite
  split
  · exact Grid.onCrew_samePlant _ (f := fun k => { k with state := .onSite }) (fun _ => rfl) g
  · exact .refl g

theorem Crew.shifted_num (on : Bool) (home : Nat) (k : Crew) : (k.shifted on home).num = k.num := by
  cases on <;> rfl

theorem Grid.shiftCrew_samePlant (on : Bool) (home : Nat) (k : Crew) (g : Grid) : (g.shiftCrew on home k).SamePlant g := by
  have shifted := Grid.onCrew_samePlant k.num (Crew.shifted_num on home) g
  unfold Grid.shiftCrew
  dsimp only
  split
  · exact (Grid.onCall_samePlant _ _ _).trans shifted
  · exact shifted

theorem doCrew_keeps (crew home shift : Nat) : KeepsNetwork (doCrew crew home shift) := by
  intro g s
  unfold doCrew
  split
  · exact s
  · split
    · split
      · exact s
      · split
        · exact s
        · exact (Grid.shiftCrew_samePlant _ _ _ g).finished_sound s
    · exact s

/-- What an event without a reply leaves. -/
theorem State.happens_networkSound {s : State} {w : Work} (h : (w.finished s.grid).NetworkSound) :
    (s.happens w).grid.NetworkSound := by rw [happens_grid]; exact h

theorem callDeadlineExpiry_sound (call : Nat) {s : State} (hs : s.grid.NetworkSound) :
    (callDeadlineExpiry call s).grid.NetworkSound := by
  unfold callDeadlineExpiry
  split
  · split
    · exact State.happens_networkSound ((Grid.onCall_samePlant call Call.becomeOverdue s.grid).finished_sound hs)
    · exact hs
  · exact hs

/-! ### Telemetry (02) -/

/-- The tables of `g`, with its valves: what telemetry leaves. -/
structure Grid.SameValves (h g : Grid) : Prop extends Grid.SameTables h g where
  allValves : h.valves = g.valves

theorem Grid.SameValves.refl (g : Grid) : g.SameValves g := ⟨.refl g, rfl⟩
theorem Grid.SameValves.trans {a b c : Grid} (h : a.SameValves b) (k : b.SameValves c) : a.SameValves c :=
  ⟨h.toSameTables.trans k.toSameTables, h.allValves.trans k.allValves⟩
theorem Grid.SameNetwork.sameValves {h g : Grid} (k : h.SameNetwork g) : h.SameValves g := ⟨k.toSameTables, k.allValves⟩

theorem Grid.SameValves.finished_sound {g : Grid} {w : Work} (k : w.grid.SameValves g) (s : g.NetworkSound) :
    (w.finished g).NetworkSound :=
  Work.finished_sound_of_tables s k.toSameTables
    ⟨by rw [k.allValves]; exact s.orders, by rw [k.allValves, k.state]; exact s.verifying⟩

theorem Grid.onFeed_sameValves (n : Nat) {f : Feed → Feed} (hf : ∀ r, ((f r).num, (f r).st) = (r.num, r.st)) (g : Grid) :
    (g.onFeed n f).SameValves g := by
  refine ⟨⟨rfl, rfl, rfl, rfl, rfl, map_map_eq fun r _ => ?_, rfl⟩, rfl⟩
  split
  · exact congrArg (fun k : Nat × FeedStatic => (k.1, k.2.point)) (hf r)
  · rfl

theorem Feed.judge_keys (v : Nat) (f : Feed) : ((f.judge v).num, (f.judge v).st) = (f.num, f.st) := by
  unfold Feed.judge
  repeat' split
  all_goals rfl

theorem Feed.advanceRuns_keys (v : Nat) (f : Feed) : ((f.advanceRuns v).num, (f.advanceRuns v).st) = (f.num, f.st) := by
  unfold Feed.advanceRuns
  repeat' split
  all_goals rfl

theorem Feed.takeValue_keys (v : Nat) (f : Feed) : ((f.takeValue v).num, (f.takeValue v).st) = (f.num, f.st) :=
  (Feed.judge_keys v _).trans (Feed.advanceRuns_keys v f)

theorem Work.handInput_grid (n : Nat) (i : Option Input) (w : Work) : (w.handInput n i).grid = w.grid := by
  unfold Work.handInput
  split <;> rfl

theorem Work.feedFollows_sameValves (b a : Point) (valid applied : Bool) (f : Feed) (w : Work) :
    (w.feedFollows b a valid applied f).grid.SameValves w.grid := by
  unfold Work.feedFollows
  split
  · exact Grid.onFeed_sameValves f.num (fun r => by exact r.takeValue_keys _) w.grid
  · split
    · rw [Work.handInput_grid]
      exact Grid.onFeed_sameValves f.num (fun _ => by rfl) w.grid
    · split
      · rw [Work.handInput_grid]
        exact Grid.onFeed_sameValves f.num (fun _ => by rfl) w.grid
      · exact .refl _

theorem Grid.compareAt_sameNetwork (point value : Nat) (g : Grid) : (g.compareAt point value).SameNetwork g := by
  refine ⟨⟨rfl, rfl, map_map_eq fun r _ => ?_, rfl, rfl, rfl, rfl⟩, rfl, rfl⟩
  repeat' split
  all_goals rfl

theorem Work.pointHandsOn_sameValves (b a : Point) (valid applied : Bool) (w : Work) :
    (w.pointHandsOn b a valid applied).grid.SameValves w.grid := by
  unfold Work.pointHandsOn
  split
  · split
    · exact Work.feedFollows_sameValves _ _ _ _ _ w
    · exact .refl _
  · split
    · exact (Grid.compareAt_sameNetwork _ _ w.grid).sameValves
    · exact .refl _
  · exact .refl _

theorem Point.takeValid_num (v : Nat) (p : Point) : (p.takeValid v).num = p.num := by
  unfold Point.takeValid
  dsimp only
  repeat' split
  all_goals rfl

theorem Point.takeSample_num (now net : Sec) (raw quality : Nat) (p : Point) :
    (p.takeSample now net raw quality).num = p.num := by
  unfold Point.takeSample
  dsimp only
  split
  · exact Point.takeValid_num _ _
  · rfl

theorem Work.sampled_sameValves (p : Point) (raw quality : Nat) (w : Work) :
    (w.sampled p raw quality).grid.SameValves w.grid := by
  have taken := (Grid.onPoint_sameNetwork p.num (fun _ _ => p.takeSample_num w.grid.now w.grid.net raw quality)
    w.grid).sameValves
  unfold Work.sampled
  dsimp only
  refine (Work.pointHandsOn_sameValves _ _ _ _ _).trans ?_
  split
  · exact taken
  · exact taken

theorem Work.pointExpired_sameValves (p : Point) (w : Work) : (w.pointExpired p).grid.SameValves w.grid :=
  (Work.pointHandsOn_sameValves _ _ _ _ _).trans
    (Grid.onPoint_sameNetwork p.num (f := fun _ => p.expire w.grid.now) (fun _ _ => rfl) w.grid).sameValves

theorem doSample_keeps (point raw quality : Nat) : KeepsNetwork (doSample point raw quality) := by
  intro g s
  unfold doSample
  split
  · exact s
  · split
    · exact s
    · exact (Work.sampled_sameValves _ raw quality (Work.start g)).finished_sound s

theorem pointIntervalExpiry_sound (point : Nat) {s : State} (hs : s.grid.NetworkSound) :
    (pointIntervalExpiry point s).grid.NetworkSound := by
  unfold pointIntervalExpiry
  split
  · split
    · exact State.happens_networkSound ((Work.pointExpired_sameValves _ (Work.start s.grid)).finished_sound hs)
    · exact hs
  · exact hs

/-! ### Valves and isolations (04, 05) -/

/-- An event on one valve: its handler moves the valve, and in VERIFYING leaves it without holder and order. -/
theorem valveEvent_finished_sound {g : Grid} (s : g.NetworkSound) (n : Nat) (c : Option Position) {f : Valve → Valve}
    (hf : ∀ v ∈ g.valves, v.num = n → (f v).Moved v)
    (hv : g.engine.state = .verifying → ∀ v ∈ g.valves, v.num = n → (f v).Untouched) :
    (((Work.start g).on (Grid.valveEvent n c f)).finished g).NetworkSound := by
  have k := Grid.valveEvent_moved n c hf
  refine Work.finished_sound_of_tables s k.sameTables ⟨k.orders s.orders, fun e => ?_⟩
  have hst : g.engine.state = .verifying := k.engine ▸ e
  have untouched : ∀ v ∈ (g.onValve n f).valves, v.Untouched := by
    intro v hm
    obtain ⟨u, hu, rfl⟩ := List.mem_map.mp hm
    split
    next h => exact hv hst u hu h
    next => exact s.verifying hst u hu
  show ∀ v ∈ (g.valveEvent n c f).valves, v.Untouched
  rcases Grid.valveEvent_valves_of_no_isos n c fun v hm => (untouched v hm).1 with h | h
  · rw [h]; exact untouched
  · rw [h]; exact s.verifying hst

/-- An event out of VERIFYING whose own handling moves valves. -/
theorem Grid.Reworked.finished_sound {g : Grid} {w : Work} (k : w.grid.Reworked Valve.Moved g) (s : g.NetworkSound)
    (hv : g.engine.state ≠ .verifying) : (w.finished g).NetworkSound :=
  Work.finished_sound_of_tables s k.sameTables ⟨k.orders s.orders, fun e => absurd (k.engine ▸ e) hv⟩

theorem Valve.reportVerifying_kept (c : Ctx) (r : Report) {v : Valve} (h : v.Untouched) :
    (v.reportVerifying c r).Moved v ∧ (v.reportVerifying c r).Untouched := by
  cases r
  · exact ⟨.of_rest rfl rfl h.2.2 (.inl rfl), h⟩
  · exact ⟨.of_rest rfl rfl h.2.2 (.inr (.inl rfl)), h⟩
  · exact ⟨.of_rest rfl rfl h.2.2 (.inr (.inr rfl)), h⟩
  · exact ⟨.of_rest rfl rfl h.2.2 (.inr (.inr rfl)), h⟩

theorem doValveReport_keeps (valve position : Nat) : KeepsNetwork (doValveReport valve position) := by
  intro g s
  unfold doValveReport
  split
  · exact s
  · split
    · exact s
    · exact s
    · split
      · exact s
      · refine valveEvent_finished_sound s valve none (fun v hm _ => ?_) (fun hst v hm _ => ?_)
        · unfold Grid.reported
          split
          next hst => exact (Valve.reportVerifying_kept _ _ (s.verifying hst v hm)).1
          next => exact Valve.report_moved _ _ v
        · unfold Grid.reported
          rw [if_pos hst]
          exact (Valve.reportVerifying_kept _ _ (s.verifying hst v hm)).2

theorem EngineState.ne_verifying_of_inService {e : EngineState} (h : e.inService = true) : e ≠ .verifying := by
  rintro rfl
  cases h

/-- An operator request whose rule moves the valve. -/
theorem operate_networkSound (valve : Nat) (cleared : Option Position) (more : List Byte) {rule : Valve → Decision}
    (hr : ∀ v c f, rule v = .change c f → ∀ u : Valve, (f u).Moved u) {g : Grid} (s : g.NetworkSound) :
    (operate valve cleared more rule g).grid.NetworkSound := by
  unfold operate
  split
  · exact s
  next hn =>
    have hv : g.engine.state ≠ .verifying :=
      EngineState.ne_verifying_of_inService (by simpa [EngineState.notInService] using hn)
    split
    · exact s
    · split
      · exact s
      · exact s
      next hd =>
        split
        · exact s
        · exact valveEvent_finished_sound s valve cleared (fun v _ _ => hr _ _ _ hd v) fun h => absurd h hv

theorem decideClose_moved (c : Ctx) (v : Valve) (k : Code) (f : Valve → Valve) (h : decideClose c v = .change k f)
    (u : Valve) : (f u).Moved u := by
  have held := (u.addHolder_held c .plain).toMoved
  unfold decideClose at h
  repeat' split at h
  all_goals cases h
  all_goals exact held

theorem decideCloseTimed_moved (c : Ctx) (d : Nat) (v : Valve) (k : Code) (f : Valve → Valve)
    (h : decideCloseTimed c d v = .change k f) (u : Valve) : (f u).Moved u := by
  unfold decideCloseTimed at h
  split at h
  all_goals cases h
  exact (u.addHolder_held c _).toMoved

theorem decideOpen_moved (c : Ctx) (v : Valve) (k : Code) (f : Valve → Valve) (h : decideOpen c v = .change k f)
    (u : Valve) : (f u).Moved u := by
  unfold decideOpen at h
  split at h
  all_goals cases h
  all_goals exact u.dropHold_moved c

theorem decideClear_moved (c : Ctx) (p : Position) (v : Valve) (k : Code) (f : Valve → Valve)
    (h : decideClear c p v = .change k f) (u : Valve) : (f u).Moved u := by
  unfold decideClear at h
  split at h
  all_goals cases h
  exact u.clearFault_moved c p

theorem doClearFault_keeps (valve position : Nat) : KeepsNetwork (doClearFault valve position) := by
  intro g s
  unfold doClearFault
  split
  · exact operate_networkSound _ _ _ (decideClear_moved _ _) s
  · exact operate_networkSound _ _ _ (fun _ _ _ h => by cases h) s

/-- A valve timer whose handler moves the valve; in VERIFYING it never runs out, or its handler leaves the valve without holder
and order. -/
theorem valveTimer_networkSound (valve : Nat) {deadline : Valve → Option Sec} {f : Ctx → Valve → Valve}
    (hf : ∀ c v, (f c v).Moved v)
    (hv : ∀ c v, v.Untouched → deadline v = none ∨ ∀ u : Valve, u.Untouched → (f c u).Untouched) {s : State}
    (hs : s.grid.NetworkSound) : (valveTimer valve deadline f s).grid.NetworkSound := by
  unfold valveTimer
  split
  next v hfound =>
    split
    next hdue =>
      refine State.happens_networkSound (valveEvent_finished_sound hs valve none (fun u _ _ => hf _ u) fun hst u hu _ => ?_)
      rcases hv s.grid.ctx v (hs.verifying hst v (Grid.valve?_mem hfound)) with h | h
      · rw [h] at hdue
        cases hdue
      · exact h u (hs.verifying hst u hu)
    next => exact hs
  · exact hs

theorem isolateAgain_networkSound (i : Isolation) (call : Nat) {g : Grid} (s : g.NetworkSound) :
    (isolateAgain i call g).grid.NetworkSound := by
  unfold isolateAgain
  split
  · exact s
  · split
    · exact (Grid.linkCall_samePlant _ _ g).finished_sound s
    · split
      · exact (Grid.awaitIsolation_samePlant _ _ g).finished_sound s
      · exact s

theorem doIsolate_keeps (segment call : Nat) : KeepsNetwork (doIsolate segment call) := by
  intro g s
  have isolated : g.engine.state ≠ .verifying →
      (((Work.start g).on (Grid.isolate segment call)).finished g).NetworkSound :=
    fun hv => (Grid.isolate_held segment call g).moved.finished_sound s hv
  unfold doIsolate
  split
  iterate 4 exact s
  all_goals
    have hv : g.engine.state ≠ .verifying := by rw [‹g.engine.state = _›]; exact nofun
    repeat' split
    case h_3 => exact isolateAgain_networkSound _ call s
    case h_4.isFalse => exact isolated hv
    all_goals exact s

theorem doRelease_keeps (n : Nat) : KeepsNetwork (doRelease n) := by
  intro g s
  unfold doRelease
  split
  · exact s
  next hi =>
    split
    · exact s
    · split
      · exact s
      · exact (Grid.releaseIso_moved _ g).finished_sound s
          (EngineState.ne_verifying_of_inService (by simpa using hi))

/-! ### Restoration (06) -/

theorem Segment.relight_supplied (net : Sec) (a : Nat) (s : Segment) : (s.relight net a).supplied = s.supplied := by
  unfold Segment.relight
  split
  · dsimp only
    split
    · exact Segment.endOutage_supplied _ _ _
    · rfl
  · rfl

theorem doRelight_keeps (segment count : Nat) : KeepsNetwork (doRelight segment count) := by
  intro g s
  unfold doRelight
  split
  · exact s
  · split
    · exact s
    · split
      · exact s
      · refine Work.finished_sound g ?_
        rw [Work.reachSeg_grid]
        exact (Grid.onSeg_sameNetwork segment (fun r => r.relight_supplied _ _) g).sound s

theorem doSettle_keeps (segment : Nat) : KeepsNetwork (doSettle segment) := by
  intro g s
  unfold doSettle
  split
  · exact s
  · split
    · exact s
    · split
      · exact Work.finished_sound g
          (Grid.SameNetwork.sound
            (Grid.onSeg_sameNetwork segment (fun _ => by exact Segment.endOutage_supplied _ _ _) g) s)
      · exact s

end Sys2Proof.Machine
end

section
/-! PROOF. Every step keeps the network sound (O58); passability (O51). -/
namespace Sys2Proof.Machine

theorem Grid.reset_networkSound : Grid.reset.NetworkSound where
  segs := .nil
  valves := .nil
  points := .nil
  feeds := .nil
  crews := .nil
  feedPoints := .nil
  waiting := by simp [Grid.reset]
  staged := by simp [Grid.reset]
  orders := by simp [Grid.reset]
  verifying := by simp [Grid.reset]
  supply := by simp [Grid.reset]

theorem orderTimeout_networkSound (valve : Nat) {s : State} (hs : s.grid.NetworkSound) :
    (valveTimer valve (fun v => v.order.map (·.deadline)) Valve.timeOut s).grid.NetworkSound :=
  valveTimer_networkSound valve (fun c v => v.enterStuck_moved c v.known .timeout)
    (fun _ _ ⟨_, _, ho⟩ => .inl (by rw [ho]; rfl)) hs

theorem timedHoldExpiry_networkSound (valve : Nat) {s : State} (hs : s.grid.NetworkSound) :
    (valveTimer valve (fun v => v.hold.expiry?) Valve.dropHold s).grid.NetworkSound :=
  valveTimer_networkSound valve (fun c v => v.dropHold_moved c) (fun _ _ ⟨_, hh, _⟩ => .inl (by rw [hh]; rfl)) hs

theorem Valve.unverify_moved (c : Ctx) (v : Valve) : (Valve.unverify c v).Moved v := .of_kept rfl rfl rfl rfl

theorem Valve.Untouched.unverify {v : Valve} (h : v.Untouched) (c : Ctx) : (Valve.unverify c v).Untouched := h

theorem verifyDeadlineExpiry_networkSound (valve : Nat) {s : State} (hs : s.grid.NetworkSound) :
    (valveTimer valve (fun v => v.verifyDeadline) Valve.unverify s).grid.NetworkSound :=
  valveTimer_networkSound valve (fun c v => v.unverify_moved c) (fun c _ _ => .inr fun _ h => h.unverify c) hs

theorem exec_networkSound (i : Instr) {s : State} (hs : s.grid.NetworkSound) :
    ∃ t, exec i s = .next t ∧ t.grid.NetworkSound := by
  have request : ∀ {h : Grid → Served}, KeepsNetwork h → (answer i (atGrid h) s).grid.NetworkSound := fun hh =>
    answer_atGrid_networkSound hh hs
  cases i with
  | coldStart rate => exact ⟨_, rfl, Grid.reset_networkSound⟩
  | frameReceived chars => exact ⟨_, rfl, hs⟩
  | frameGapAbandon => exact ⟨_, rfl, hs⟩
  | transmitFrame =>
    refine ⟨_, rfl, ?_⟩
    unfold State.transmit
    split <;> exact hs
  | ident tag => exact ⟨_, rfl, request fun _ s => s⟩
  | status tag => exact ⟨_, rfl, answer_networkSound hs fun _ h => h⟩
  | setClock tag time => exact ⟨_, rfl, request (doSetClock_keeps time)⟩
  | restart tag => exact ⟨_, rfl, answer_networkSound hs fun _ h => Grid.restarted_sound h⟩
  | fetch tag => exact ⟨_, rfl, answer_networkSound hs doFetch_networkSound⟩
  | read tag kind number => exact ⟨_, rfl, request (doRead_keeps _ _)⟩
  | list tag which argument start => exact ⟨_, rfl, request (doList_keeps _ _ _)⟩
  | amend tag kind number mask values => exact ⟨_, rfl, request (doAmend_keeps _ _ _ _)⟩
  | weather tag factor => exact ⟨_, rfl, request (doWeather_keeps _)⟩
  | loadCursor tag table index => exact ⟨_, rfl, request (doLoadCursor_keeps _ _)⟩
  | loadPart tag content => exact ⟨_, rfl, request (doLoadPart_keeps _)⟩
  | loadRead tag => exact ⟨_, rfl, request doLoadRead_keeps⟩
  | commit tag => exact ⟨_, rfl, request doCommit_keeps⟩
  | forceLive tag => exact ⟨_, rfl, request doForceLive_keeps⟩
  | enterMaintenance tag => exact ⟨_, rfl, request doEnterMaintenance_keeps⟩
  | adopt tag => exact ⟨_, rfl, request doAdopt_keeps⟩
  | abandon tag => exact ⟨_, rfl, request doAbandon_keeps⟩
  | sample tag point raw quality => exact ⟨_, rfl, request (doSample_keeps _ _ _)⟩
  | pointIntervalExpiry point => exact ⟨_, rfl, pointIntervalExpiry_sound point hs⟩
  | valveReport tag valve position => exact ⟨_, rfl, request (doValveReport_keeps _ _)⟩
  | valveClose tag valve =>
    exact ⟨_, rfl, request fun _ s => operate_networkSound _ _ _ (decideClose_moved _) s⟩
  | valveCloseTimed tag valve duration =>
    exact ⟨_, rfl, request fun _ s => operate_networkSound _ _ _ (decideCloseTimed_moved _ _) s⟩
  | valveOpen tag valve =>
    exact ⟨_, rfl, request fun _ s => operate_networkSound _ _ _ (decideOpen_moved _) s⟩
  | clearFault tag valve position => exact ⟨_, rfl, request (doClearFault_keeps _ _)⟩
  | orderTimeout valve => exact ⟨_, rfl, orderTimeout_networkSound valve hs⟩
  | timedHoldExpiry valve => exact ⟨_, rfl, timedHoldExpiry_networkSound valve hs⟩
  | verifyDeadlineExpiry valve => exact ⟨_, rfl, verifyDeadlineExpiry_networkSound valve hs⟩
  | isolate tag segment call => exact ⟨_, rfl, request (doIsolate_keeps _ _)⟩
  | release tag isolation => exact ⟨_, rfl, request (doRelease_keeps _)⟩
  | relight tag segment count => exact ⟨_, rfl, request (doRelight_keeps _ _)⟩
  | settle tag segment => exact ⟨_, rfl, request (doSettle_keeps _)⟩
  | call tag kind segment key grade => exact ⟨_, rfl, request (doCall_keeps _ _ _ _)⟩
  | assign tag call crew => exact ⟨_, rfl, request (doAssign_keeps _ _)⟩
  | callEventOnSite tag call => exact ⟨_, rfl, request (callEvent_keeps _ _ (Grid.arrive_samePlant _))⟩
  | callEventMadeSafe tag call => exact ⟨_, rfl, request (callEvent_keeps _ _ (Grid.makeSafe_samePlant _))⟩
  | callEventClose tag call => exact ⟨_, rfl, request (callEvent_keeps _ _ (Grid.closeCall_samePlant _))⟩
  | crew tag crew homeFeed shift => exact ⟨_, rfl, request (doCrew_keeps _ _ _)⟩
  | callDeadlineExpiry call => exact ⟨_, rfl, callDeadlineExpiry_sound call hs⟩
  | screenSet tag screen urgency scope care required => exact ⟨_, rfl, request (doScreenSet_keeps _ _ _ _ _)⟩
  | screenOff tag screen => exact ⟨_, rfl, request (doScreenOff_keeps _)⟩
  | runSecondsAdvance => exact ⟨_, rfl, hs.sameEngine rfl rfl⟩

/-- A step keeps the network sound: it runs the command at the front, answers the held request, or idles. -/
theorem step_networkSound {s : State} (hs : s.grid.NetworkSound) : ∃ t, step s = .next t ∧ t.grid.NetworkSound := by
  unfold step
  split
  · exact exec_networkSound _ hs
  · unfold idle
    split
    · unfold serveHeld
      split
      · exact exec_networkSound _ hs
      · refine ⟨_, rfl, atGrid_networkSound (doBadEvent_keeps _) (s.takeHeld _) ?_⟩
        rw [State.takeHeld_grid]
        exact hs
    · exact ⟨s, rfl, hs⟩

/-- Settles O58: each command keeps the tables, the orders on moving valves and, by the resolution that follows every change of
passability or presence, the supply. -/
theorem stepKeepsNetworkSound : Obligations.StepKeepsNetworkSound := by
  intro s t hs h
  obtain ⟨u, hu, sound⟩ := step_networkSound hs
  rw [hu] at h
  cases h
  exact sound

/-- Settles O51. -/
theorem passabilityTable : Obligations.PassabilityTable := by
  intro v
  refine ⟨?_, ?_, fun hs hk => by simp [Valve.passable, hs, hk], fun hs hk => by simp [Valve.passable, hs, hk]⟩
  · rintro (h | h) <;> simp [Valve.passable, h]
  · rintro (h | h) <;> simp [Valve.passable, h]

end Sys2Proof.Machine
end

section
/-! PROOF. What a supply resolution gives: chains of least length, parents and MESHED (O60). -/
namespace Sys2Proof.Machine

/-! ### Looking up reached segments -/

/-- The segments that one round of a resolution reaches (01 R15). -/
def Grid.round (g : Grid) (k : Nat) (done : Reached) : Reached :=
  g.segs.filterMap fun s =>
    if (done.lookup s.num).isSome then none else (linkAt g done k s.num).map fun l => (s.num, l)

theorem spread_succ (g : Grid) (n k : Nat) (done : Reached) :
    spread g (n + 1) k done = spread g n (k + 1) (done ++ g.round k done) := rfl

/-- A table made of the values that keys have gives each key its value. -/
theorem lookup_filterMap_keys {α β : Type} (key : α → Nat) (f : Nat → Option β) (l : List α) (n : Nat) :
    (l.filterMap fun s => (f (key s)).map fun x => (key s, x)).lookup n = if n ∈ l.map key then f n else none := by
  induction l with
  | nil => rfl
  | cons s ss ih =>
    rw [List.filterMap_cons]
    by_cases e : n = key s
    · subst e
      cases hf : f (key s) with
      | none =>
        simp only [hf, Option.map_none, ih, ite_self]
      | some x => simp
    · have hm : n ∈ (s :: ss).map key ↔ n ∈ ss.map key := by simp [e]
      simp only [hm]
      cases hf : f (key s) with
      | none => simp only [Option.map_none, ih]
      | some x => simp only [Option.map_some, lookup_pair, if_neg e, ih]

/-- A round reaches the segments of the table that have no link yet and lie across a passable valve from a node at `k`. -/
theorem Grid.lookup_round (g : Grid) (k : Nat) (done : Reached) (n : Nat) :
    (g.round k done).lookup n =
      if n ∈ g.segs.map (fun r => r.num) then if (done.lookup n).isSome then none else linkAt g done k n else none := by
  have h := lookup_filterMap_keys (fun r : Segment => r.num)
    (fun m => if (done.lookup m).isSome then none else linkAt g done k m) g.segs n
  rw [← h]
  unfold Grid.round
  congr 2
  funext s
  split <;> rfl

/-! ### Links (01 R16) -/

/-! The feed that supplies a node at distance `k`: a PRESENT feed at 0, a reached segment at its own distance. -/

theorem feedAt_feed {feeds : List Feed} {done : Reached} {k f e : Nat} :
    feedAt feeds done k (.feed f) = some e ↔ k = 0 ∧ e = f ∧ ∃ fd ∈ feeds, fd.num = f ∧ fd.presence = .present := by
  simp only [feedAt, Option.ite_none_right_eq_some, Option.some.injEq, List.any_eq_true, Bool.and_eq_true, beq_iff_eq]
  exact ⟨fun ⟨⟨hk, hfd⟩, he⟩ => ⟨hk, he.symm, hfd⟩, fun ⟨hk, he, hfd⟩ => ⟨⟨hk, hfd⟩, he.symm⟩⟩

theorem feedAt_seg {feeds : List Feed} {done : Reached} {k m e : Nat} :
    feedAt feeds done k (.seg m) = some e ↔ ∃ l, done.lookup m = some l ∧ l.dist = k ∧ l.feed = e := by
  simp only [feedAt, Option.bind_eq_some_iff, Option.ite_none_right_eq_some, Option.some.injEq]

/-- What a link is: the lowest-numbered passable valve to a node at `k`, that node, and the feed that supplies it. -/
theorem linkAt_eq_some {g : Grid} (ha : (g.valves.map fun v => v.num).Pairwise (· < ·)) {done : Reached} {k n : Nat}
    {l : SupplyLink} (h : linkAt g done k n = some l) :
    l.dist = k + 1 ∧ feedAt g.feeds done k l.parent = some l.feed ∧
      (∃ v ∈ g.valves, v.num = l.valve ∧ v.passable = true ∧ v.st.across n = some l.parent) ∧
      ∀ v ∈ g.valves, ∀ x, v.passable = true → v.st.across n = some x → (feedAt g.feeds done k x).isSome = true →
        l.valve ≤ v.num := by
  obtain ⟨pre, v, post, hsplit, hv, hpre⟩ := List.findSome?_eq_some_iff.mp h
  have hmem : v ∈ g.valves := by rw [hsplit]; simp
  split at hv
  next hp =>
    obtain ⟨x, hx, hm⟩ := Option.bind_eq_some_iff.mp hv
    obtain ⟨f, hf, rfl⟩ := Option.map_eq_some_iff.mp hm
    refine ⟨rfl, hf, ⟨v, hmem, rfl, hp, hx⟩, fun w hw y hwp hy hs => ?_⟩
    rw [hsplit] at hw ha
    rw [List.map_append, List.map_cons, List.pairwise_append, List.pairwise_cons] at ha
    obtain ⟨_, ⟨hpost, _⟩, _⟩ := ha
    rcases List.mem_append.mp hw with hw | hw
    · have hnone := hpre w hw
      simp only [hwp, if_true, hy, Option.bind_some, Option.map_eq_none_iff] at hnone
      rw [hnone] at hs
      cases hs
    · rcases List.mem_cons.mp hw with rfl | hw
      · exact Nat.le_refl _
      · exact Nat.le_of_lt (hpost _ (List.mem_map_of_mem hw))
  next => cases hv

/-- A segment across a passable valve from a node at `k` has a link there. -/
theorem linkAt_isSome {g : Grid} {done : Reached} {k n : Nat} {v : Valve} {x : Node} (hv : v ∈ g.valves)
    (hp : v.passable = true) (hx : v.st.across n = some x) (hf : (feedAt g.feeds done k x).isSome = true) :
    (linkAt g done k n).isSome = true := by
  unfold linkAt
  rw [List.findSome?_isSome_iff]
  exact ⟨v, hv, by simp [hp, hx, hf]⟩

/-! ### The rounds of a resolution (01 R15) -/

/-- A chain has at least one valve. -/
theorem Grid.Chain.pos {g : Grid} {n k : Nat} (h : g.Chain n k) : 0 < k := by cases h <;> omega

/-- After `k` rounds the segments reached are those of the table that a chain of at most `k` valves supplies; each has a
chain of its distance, none shorter, and the link its round gave it. -/
structure Grid.ReachedWithin (g : Grid) (k : Nat) (done : Reached) : Prop where
  near : ∀ n l, done.lookup n = some l → n ∈ g.segs.map (fun r => r.num) ∧ 1 ≤ l.dist ∧ l.dist ≤ k
  chain : ∀ n l, done.lookup n = some l → g.Chain n l.dist
  least : ∀ n l, done.lookup n = some l → ∀ j, g.Chain n j → l.dist ≤ j
  link : ∀ n l, done.lookup n = some l → linkAt g done (l.dist - 1) n = some l
  full : ∀ n ∈ g.segs.map (fun r => r.num), ∀ j, j ≤ k → g.Chain n j → (done.lookup n).isSome = true

theorem Grid.ReachedWithin.zero (g : Grid) : g.ReachedWithin 0 [] :=
  ⟨nofun, nofun, nofun, nofun, fun _ _ _ hj h => by have := h.pos; omega⟩

/-- A round adds nothing at the distances given before it. -/
theorem feedAt_append {feeds : List Feed} {done more : Reached} {k j : Nat} (hj : j ≤ k)
    (hm : ∀ n l, more.lookup n = some l → l.dist = k + 1) (x : Node) :
    feedAt feeds (done ++ more) j x = feedAt feeds done j x := by
  cases x with
  | feed f => rfl
  | seg m =>
    simp only [feedAt, List.lookup_append]
    cases hd : done.lookup m with
    | some l => rfl
    | none =>
      cases hr : more.lookup m with
      | none => rfl
      | some l =>
        have hne : l.dist ≠ j := by rw [hm m l hr]; omega
        simp [hne]

theorem Grid.ReachedWithin.next {g : Grid} (ha : (g.valves.map fun v => v.num).Pairwise (· < ·)) {k : Nat}
    {done : Reached} (r : g.ReachedWithin k done) : g.ReachedWithin (k + 1) (done ++ g.round k done) := by
  have fresh : ∀ n l, (g.round k done).lookup n = some l →
      n ∈ g.segs.map (fun r => r.num) ∧ done.lookup n = none ∧ linkAt g done k n = some l := by
    intro n l h
    rw [g.lookup_round] at h
    split at h
    next hn =>
      split at h
      · cases h
      next hd => exact ⟨hn, Option.not_isSome_iff_eq_none.mp hd, h⟩
    next => cases h
  have dist : ∀ n l, (g.round k done).lookup n = some l → l.dist = k + 1 := fun n l h =>
    (linkAt_eq_some ha (fresh n l h).2.2).1
  have linkSame : ∀ j, j ≤ k → ∀ n, linkAt g (done ++ g.round k done) j n = linkAt g done j n := by
    intro j hj n
    unfold linkAt
    simp only [feedAt_append hj dist]
  have cases : ∀ n l, (done ++ g.round k done).lookup n = some l →
      done.lookup n = some l ∨ (g.round k done).lookup n = some l := by
    intro n l h
    rw [List.lookup_append] at h
    cases hd : done.lookup n with
    | some l' => rw [hd] at h; exact .inl h
    | none => rw [hd] at h; exact .inr h
  refine ⟨fun n l h => ?_, fun n l h => ?_, fun n l h j hc => ?_, fun n l h => ?_, fun n hn j hj hc => ?_⟩
  · rcases cases n l h with h | h
    · obtain ⟨hn, h1, hk⟩ := r.near n l h
      exact ⟨hn, h1, by omega⟩
    · have := dist n l h
      exact ⟨(fresh n l h).1, by omega, by omega⟩
  · rcases cases n l h with h | h
    · exact r.chain n l h
    · obtain ⟨hd, hf, ⟨v, hv, _, hp, hx⟩, _⟩ := linkAt_eq_some ha (fresh n l h).2.2
      rw [hd]
      cases hpar : l.parent with
      | feed f =>
        rw [hpar] at hf hx
        obtain ⟨rfl, _, fd, hfd, rfl, hs⟩ := feedAt_feed.mp hf
        exact .byFeed n v fd hv hp hfd hs hx
      | seg m =>
        rw [hpar] at hf hx
        obtain ⟨l', hl', rfl, _⟩ := feedAt_seg.mp hf
        exact .bySegment n m _ v hv hp (r.near m l' hl').1 hx (r.chain m l' hl')
  · rcases cases n l h with h | h
    · exact r.least n l h j hc
    · rw [dist n l h]
      refine Classical.byContradiction fun hlt => ?_
      have := r.full n (fresh n l h).1 j (by omega) hc
      rw [(fresh n l h).2.1] at this
      cases this
  · rcases cases n l h with h | h
    · obtain ⟨_, h1, hk⟩ := r.near n l h
      rw [linkSame _ (by omega)]
      exact r.link n l h
    · rw [dist n l h, Nat.add_sub_cancel, linkSame k (Nat.le_refl k)]
      exact (fresh n l h).2.2
  · rw [List.lookup_append]
    by_cases hd : (done.lookup n).isSome = true
    · simp [Option.or_of_isSome hd, hd]
    · have hnone : done.lookup n = none := Option.not_isSome_iff_eq_none.mp hd
      have hjk : j = k + 1 := by
        refine Classical.byContradiction fun hne => ?_
        exact hd (r.full n hn j (by omega) hc)
      subst hjk
      rw [hnone, Option.none_or, g.lookup_round, if_pos hn, if_neg hd]
      cases hc with
      | byFeed _ v fd hv hp hf hs hx =>
        refine linkAt_isSome hv hp hx ?_
        rw [feedAt_feed.mpr ⟨rfl, rfl, fd, hf, rfl, hs⟩]
        rfl
      | bySegment _ next _ v hv hp hm hx hnext =>
        obtain ⟨l, hl⟩ := Option.isSome_iff_exists.mp (r.full next hm k (Nat.le_refl k) hnext)
        have hdist : l.dist = k := by
          refine Nat.le_antisymm (r.least next l hl k hnext) ?_
          refine Classical.byContradiction fun hlt => ?_
          exact hd (r.full n hn (l.dist + 1) (by omega) (.bySegment n next _ v hv hp hm hx (r.chain next l hl)))
        refine linkAt_isSome hv hp hx ?_
        rw [feedAt_seg.mpr ⟨l, hl, hdist, rfl⟩]
        rfl

theorem Grid.ReachedWithin.spread {g : Grid} (ha : (g.valves.map fun v => v.num).Pairwise (· < ·)) (fuel : Nat) {k : Nat}
    {done : Reached} (r : g.ReachedWithin k done) : g.ReachedWithin (k + fuel) (Machine.spread g fuel k done) := by
  induction fuel generalizing k done with
  | zero => exact r
  | succ n ih =>
    rw [spread_succ, show k + (n + 1) = k + 1 + n by omega]
    exact ih (r.next ha)

theorem Grid.reachedSegs_within {g : Grid} (ha : (g.valves.map fun v => v.num).Pairwise (· < ·)) :
    g.ReachedWithin g.segs.length g.reachedSegs := by
  have h := (Grid.ReachedWithin.zero g).spread ha g.segs.length
  rwa [Nat.zero_add] at h

/-! ### No least chain is longer than the table -/

/-- The segments of a least chain stand in the table and none stands twice. -/
theorem Grid.Chain.nodes {g : Grid} {n k : Nat} (h : g.Chain n k) (hn : n ∈ g.segs.map (fun r => r.num))
    (hk : ∀ j, g.Chain n j → k ≤ j) :
    ∃ ns : List Nat, ns.length = k ∧ ns.Nodup ∧ (∀ m ∈ ns, m ∈ g.segs.map (fun r => r.num)) ∧
      ∀ m ∈ ns, ∃ j, j ≤ k ∧ g.Chain m j := by
  induction h with
  | byFeed n v fd hv hp hf hs hx =>
    exact ⟨[n], rfl, by simp, by simpa using hn, by simpa using ⟨1, Nat.le_refl 1, .byFeed n v fd hv hp hf hs hx⟩⟩
  | bySegment n next k v hv hp hm hx hnext ih =>
    obtain ⟨ns, hlen, hnd, hmem, hshort⟩ := ih hm fun j hj => by
      have := hk (j + 1) (.bySegment n next j v hv hp hm hx hj)
      omega
    refine ⟨n :: ns, by rw [List.length_cons, hlen], List.nodup_cons.mpr ⟨fun hin => ?_, hnd⟩, ?_, ?_⟩
    · obtain ⟨j, hj, hc⟩ := hshort n hin
      have := hk j hc
      omega
    · intro m hin
      rcases List.mem_cons.mp hin with rfl | hin
      · exact hn
      · exact hmem m hin
    · intro m hin
      rcases List.mem_cons.mp hin with rfl | hin
      · exact ⟨k + 1, Nat.le_refl _, .bySegment m next k v hv hp hm hx hnext⟩
      · obtain ⟨j, hj, hc⟩ := hshort m hin
        exact ⟨j, by omega, hc⟩

theorem exists_least {p : Nat → Prop} (h : ∃ n, p n) : ∃ n, p n ∧ ∀ j, p j → n ≤ j := by
  obtain ⟨n, hn⟩ := h
  induction n using Nat.strongRecOn with
  | ind n ih =>
    by_cases hs : ∃ j, j < n ∧ p j
    · obtain ⟨j, hj, hpj⟩ := hs
      exact ih j hj hpj
    · exact ⟨n, hn, fun j hpj => Nat.le_of_not_lt fun hj => hs ⟨j, hj, hpj⟩⟩

/-- A supplied segment of the table has a chain no longer than the table. -/
theorem Grid.Supplied.short {g : Grid} {n : Nat} (h : g.Supplied n) (hn : n ∈ g.segs.map (fun r => r.num)) :
    ∃ k, k ≤ g.segs.length ∧ g.Chain n k := by
  obtain ⟨k, hc, hleast⟩ := exists_least h
  obtain ⟨ns, hlen, hnd, hmem, _⟩ := hc.nodes hn hleast
  have hle := hnd.length_le_of_subset hmem
  rw [hlen, List.length_map] at hle
  exact ⟨k, hle, hc⟩

/-! ### Supply states -/

theorem supplyIn_eq_fed {done : Reached} {n : Nat} {l : SupplyLink} : supplyIn done n = .fed l ↔ done.lookup n = some l := by
  unfold supplyIn
  split
  next h => rw [h]; simp
  next h => rw [h]; simp

theorem supplyIn_isFed {done : Reached} {n : Nat} : (supplyIn done n).isFed = true ↔ (done.lookup n).isSome = true := by
  unfold supplyIn
  split
  next h => rw [h]; exact ⟨fun _ => rfl, fun _ => rfl⟩
  next h => rw [h]; exact ⟨nofun, nofun⟩

/-- A resolution makes a segment of the table FED exactly when a chain supplies it (01 R15). -/
theorem Grid.isFed_iff_supplied {g : Grid} (ha : (g.valves.map fun v => v.num).Pairwise (· < ·)) {n : Nat}
    (hn : n ∈ g.segs.map (fun r => r.num)) : (supplyIn g.reachedSegs n).isFed = true ↔ g.Supplied n := by
  have r := Grid.reachedSegs_within ha
  rw [supplyIn_isFed]
  constructor
  · intro h
    obtain ⟨l, hl⟩ := Option.isSome_iff_exists.mp h
    exact ⟨l.dist, r.chain n l hl⟩
  · intro h
    obtain ⟨k, hk, hc⟩ := h.short hn
    exact r.full n hn k hk hc

/-- A node at distance `d - 1` is one nearer than `d`. -/
theorem feedAt_iff_oneNearer {g : Grid} {done : Reached} {d : Nat}
    (h1 : 1 ≤ d) (x : Node) : (feedAt g.feeds done (d - 1) x).isSome = true ↔ g.OneNearer (supplyIn done) d x := by
  rw [Option.isSome_iff_exists]
  cases x with
  | feed f =>
    simp only [feedAt_feed, Grid.OneNearer]
    constructor
    · rintro ⟨_, hk, _, hf⟩
      exact ⟨by omega, hf⟩
    · rintro ⟨hk, hf⟩
      exact ⟨f, by omega, rfl, hf⟩
  | seg m =>
    simp only [feedAt_seg, Grid.OneNearer, supplyIn_eq_fed]
    constructor
    · rintro ⟨_, l, hl, hk, _⟩
      exact ⟨l, hl, by omega⟩
    · rintro ⟨l, hl, hk⟩
      exact ⟨l.feed, l, hl, by omega, rfl⟩

/-- The feed a link names is its parent's (01 R16). -/
theorem feed_of_parent {feeds : List Feed} {done : Reached} {k : Nat} {l : SupplyLink}
    (h : feedAt feeds done k l.parent = some l.feed) :
    l.feed = match l.parent with
      | .feed f => f
      | .seg m => ((supplyIn done m).feed?).getD 0 := by
  cases hp : l.parent with
  | feed f =>
    rw [hp] at h
    exact (feedAt_feed.mp h).2.1
  | seg m =>
    rw [hp] at h
    obtain ⟨l', hl', _, hf⟩ := feedAt_seg.mp h
    simp [supplyIn_eq_fed.mpr hl', Supply.feed?, hf]

/-- The link of a FED segment (01 R16). -/
theorem Grid.fed_link {g : Grid} (ha : (g.valves.map fun v => v.num).Pairwise (· < ·)) {n : Nat} {l : SupplyLink}
    (h : supplyIn g.reachedSegs n = .fed l) :
    g.Chain n l.dist ∧ (∀ k, g.Chain n k → l.dist ≤ k) ∧
      (∃ v ∈ g.valves, v.num = l.valve ∧ v.passable = true ∧ v.st.across n = some l.parent) ∧
      g.OneNearer (supplyIn g.reachedSegs) l.dist l.parent ∧
      (∀ v ∈ g.valves, ∀ x, v.passable = true → v.st.across n = some x →
        g.OneNearer (supplyIn g.reachedSegs) l.dist x → l.valve ≤ v.num) ∧
      l.feed = match l.parent with
        | .feed f => f
        | .seg m => ((supplyIn g.reachedSegs m).feed?).getD 0 := by
  have r := Grid.reachedSegs_within ha
  have hl := supplyIn_eq_fed.mp h
  have h1 := (r.near n l hl).2.1
  have nearer := fun x => feedAt_iff_oneNearer (g := g) (done := g.reachedSegs) h1 x
  obtain ⟨_, hfeed, hvalve, hlow⟩ := linkAt_eq_some ha (r.link n l hl)
  exact ⟨r.chain n l hl, r.least n l hl, hvalve, (nearer _).mp (by rw [hfeed]; rfl),
    fun v hv x hp hx hn => hlow v hv x hp hx ((nearer x).mpr hn), feed_of_parent hfeed⟩

/-- MESHED: another passable valve to a PRESENT feed, or to a FED segment of which it is not the parent valve (01 R17). -/
theorem meshedIn_iff (g : Grid) (done : Reached) (n : Nat) :
    meshedIn g done n = true ↔ ∃ l, supplyIn done n = .fed l ∧ ∃ v ∈ g.valves, v.passable = true ∧ v.num ≠ l.valve ∧
      ((∃ m l', v.st.across n = some (.seg m) ∧ supplyIn done m = .fed l' ∧ l'.valve ≠ v.num) ∨
        ∃ f fd, v.st.across n = some (.feed f) ∧ fd ∈ g.feeds ∧ fd.num = f ∧ fd.presence = .present) := by
  simp only [supplyIn_eq_fed]
  unfold meshedIn
  cases hl : done.lookup n with
  | none => simp
  | some l =>
    simp only [List.any_eq_true, Bool.and_eq_true, bne_iff_ne, Option.some.injEq, exists_eq_left', and_assoc]
    refine exists_congr fun v => and_congr_right fun _ => and_congr_right fun _ => and_congr_right fun _ => ?_
    cases hx : v.st.across n with
    | none => simp
    | some x =>
      cases x with
      | seg m => cases hm : done.lookup m <;> simp [hm]
      | feed f =>
        simp only [reduceCtorEq, Option.some.injEq, false_and, exists_false, false_or, List.any_eq_true, Bool.and_eq_true,
          beq_iff_eq]
        exact ⟨fun ⟨fd, hfd, hn, hp⟩ => ⟨f, fd, rfl, hfd, hn, hp⟩, fun ⟨_, fd, e, hfd, hn, hp⟩ => by
          cases e
          exact ⟨fd, hfd, hn, hp⟩⟩

/-- Settles O60: the invariant of the rounds gives the links, the pigeonhole over a least chain that the rounds suffice. -/
theorem fedExactlyWhenSupplied : Obligations.FedExactlyWhenSupplied := fun g n ha hn =>
  ⟨Grid.isFed_iff_supplied ha hn, fun _ h => Grid.fed_link ha h, meshedIn_iff g g.reachedSegs n⟩

end Sys2Proof.Machine
end

section
/-! SUPPORT. The loaded-topology rule finds the first record that fails a row of 01 Table 1-5: each check against its row, the
forest of normally open valves against the joins of its valves, and the passes in their order. -/
namespace Sys2Proof.Machine

/-! ### The turns of the checks -/

/-- The check that has a turn. -/
def checkAt : Nat × Nat × Nat → Ref × InvalidReason
  | (0, n, 0) => (⟨.feed, n⟩, .feedPoint)
  | (0, n, _) => (⟨.feed, n⟩, .pointShared)
  | (1, n, 0) => (⟨.segment, n⟩, .homeFeed)
  | (1, n, 1) => (⟨.segment, n⟩, .extremityPoint)
  | (1, n, _) => (⟨.segment, n⟩, .pointShared)
  | (2, n, 0) => (⟨.valve, n⟩, .side)
  | (2, n, 1) => (⟨.valve, n⟩, .self)
  | (2, n, _) => (⟨.valve, n⟩, .fallback)
  | (3, n, _) => (⟨.segment, n⟩, .degree)
  | (4, n, 0) => (⟨.valve, n⟩, .loop)
  | (4, n, _) => (⟨.valve, n⟩, .twoFeeds)
  | (_, n, 0) => (⟨.segment, n⟩, .noFeed)
  | (_, n, _) => (⟨.segment, n⟩, .homeTree)

/-- The turn of a failed check names it. -/
theorem Topology.Fails.checkAt_turn {t : Topology} {r : Ref} {x : InvalidReason} (h : t.Fails r x) :
    checkAt (checkTurn r x) = (r, x) := by cases h <;> rfl

/-- How many checks a record has in a pass. -/
def turnsOf : Nat → Nat
  | 1 => 3
  | 2 => 3
  | 3 => 1
  | _ => 2

theorem checkTurn_lt (r : Ref) (x : InvalidReason) : (checkTurn r x).2.2 < turnsOf (checkTurn r x).1 := by
  unfold checkTurn
  split
  case h_2 => split <;> exact Nat.lt_of_sub_eq_succ rfl
  all_goals exact Nat.lt_of_sub_eq_succ rfl

theorem sooner_total {a b : Nat × Nat × Nat} (h : ¬ sooner a b) (k : ¬ sooner b a) : a = b := by
  obtain ⟨a1, a2, a3⟩ := a
  obtain ⟨b1, b2, b3⟩ := b
  simp only [sooner, not_or, not_and] at h k
  simp only [Prod.mk.injEq]
  omega

/-- The valves of a copy that are normally open (01 R10). -/
def Topology.openValves (t : Topology) : List (Nat × ValveStatic) := t.valves.filter fun v => v.2.normal == .opened

/-- The records a pass goes over (01 R7 to R11). -/
def Topology.passKeys (t : Topology) : Nat → List Nat
  | 0 => t.feeds.map fun r => r.1
  | 2 => t.valves.map fun r => r.1
  | 4 => t.openValves.map fun r => r.1
  | _ => t.segs.map fun r => r.1

theorem ValveStatic.normal_opened (v : ValveStatic) : v.normal = .opened ↔ v.kind ≠ .tie := by
  unfold ValveStatic.normal ValveKind.normal
  cases v.kind <;> simp

theorem Topology.mem_openValves {t : Topology} {n : Nat} {v : ValveStatic} :
    (n, v) ∈ t.openValves ↔ (n, v) ∈ t.valves ∧ v.kind ≠ .tie := by
  simp [Topology.openValves, ValveStatic.normal_opened]

/-- A record that fails a check stands among those its pass goes over. -/
theorem Topology.Fails.mem_passKeys {t : Topology} {r : Ref} {x : InvalidReason} (h : t.Fails r x) :
    (checkTurn r x).2.1 ∈ t.passKeys (checkTurn r x).1 := by
  have key : ∀ {α : Type} {n : Nat} {a : α} {l : List (Nat × α)}, (n, a) ∈ l → n ∈ l.map fun r => r.1 := fun h =>
    List.mem_map_of_mem (f := fun r => r.1) h
  cases h with
  | loop n v h hk hj => exact key (Topology.mem_openValves.mpr ⟨h, hk⟩)
  | twoFeeds n e f v h hk ha hb => exact key (Topology.mem_openValves.mpr ⟨h, hk⟩)
  | feedPoint n f h _ => exact key h
  | sharedFeed n m f e h _ _ _ => exact key h
  | homeFeed n r h _ => exact key h
  | extremityPoint n p r h _ _ => exact key h
  | sharedSegment n p r h _ _ => exact key h
  | side n v h _ => exact key h
  | self n v h _ _ => exact key h
  | fallback n v h _ => exact key h
  | degree n r h _ => exact key h
  | noFeed n r h _ => exact key h
  | homeTree n f r h _ _ => exact key h

theorem checkTurn_pass (r : Ref) (x : InvalidReason) : (checkTurn r x).1 ≤ 5 := by
  unfold checkTurn
  split
  case h_2 => split <;> exact Nat.le_of_ble_eq_true rfl
  all_goals exact Nat.le_of_ble_eq_true rfl

/-! ### Deciding a set of turns -/

/-- `o` is the failed check whose turn comes first among the turns in `T`, or none when no check with a turn in `T` fails. -/
structure Topology.Decides (t : Topology) (o : Option Invalid) (T : Nat × Nat × Nat → Prop) : Prop where
  clear : o = none → ∀ r x, t.Fails r x → ¬ T (checkTurn r x)
  fails : ∀ e, o = some e → t.Fails e.ref e.reason
  turn : ∀ e, o = some e → T (checkTurn e.ref e.reason)
  first : ∀ e, o = some e → ∀ r x, t.Fails r x → T (checkTurn r x) → ¬ sooner (checkTurn r x) (checkTurn e.ref e.reason)

variable {t : Topology}

theorem Topology.Decides.congr {o : Option Invalid} {T U : Nat × Nat × Nat → Prop} (h : t.Decides o T)
    (hT : ∀ r x, t.Fails r x → (T (checkTurn r x) ↔ U (checkTurn r x))) : t.Decides o U where
  clear := fun ho r x hf hu => h.clear ho r x hf ((hT r x hf).mpr hu)
  fails := h.fails
  turn := fun e he => (hT _ _ (h.fails e he)).mp (h.turn e he)
  first := fun e he r x hf hu => h.first e he r x hf ((hT r x hf).mpr hu)

/-- Checks made one after the other, the later ones only when the earlier ones pass. -/
theorem Topology.Decides.or {o p : Option Invalid} {T U : Nat × Nat × Nat → Prop} (h : t.Decides o T)
    (k : o = none → t.Decides p U) (hs : ∀ a b, T a → U b → ¬ sooner b a) : t.Decides (o.or p) fun a => T a ∨ U a := by
  cases o with
  | some e =>
    have eq : ∀ e', (some e : Option Invalid).or p = some e' → some e = some e' := fun _ h => h
    refine ⟨nofun, fun e' he => h.fails e' (eq e' he), fun e' he => .inl (h.turn e' (eq e' he)), fun e' he r x hf ht => ?_⟩
    rcases ht with ht | ht
    · exact h.first e' (eq e' he) r x hf ht
    · exact hs _ _ (h.turn e' (eq e' he)) ht
  | none =>
    have k := k rfl
    have none_T := h.clear rfl
    rw [Option.none_or]
    refine ⟨fun ho r x hf ht => ?_, k.fails, fun e he => .inr (k.turn e he), fun e he r x hf ht => ?_⟩
    · rcases ht with ht | ht
      · exact none_T r x hf ht
      · exact k.clear ho r x hf ht
    · rcases ht with ht | ht
      · exact absurd ht (none_T r x hf)
      · exact k.first e he r x hf ht

/-- One check that fails exactly when its row of the table does. -/
theorem Topology.Decides.check {ok : Bool} {kind : RecordKind} {n : Nat} {x : InvalidReason}
    (ht : checkAt (checkTurn ⟨kind, n⟩ x) = (⟨kind, n⟩, x)) (h : ok = false ↔ t.Fails ⟨kind, n⟩ x) :
    t.Decides (Machine.check ok kind n x) fun a => a = checkTurn ⟨kind, n⟩ x := by
  cases ok with
  | true =>
    refine ⟨fun _ r y hf he => ?_, nofun, nofun, nofun⟩
    have := hf.checkAt_turn
    rw [he, ht] at this
    cases this
    exact absurd (h.mpr hf) nofun
  | false =>
    refine ⟨nofun, fun e he => ?_, fun e he => ?_, fun e he r y _ ha => ?_⟩ <;> cases he
    · exact h.mp rfl
    · rfl
    · rw [ha]
      simp [sooner]

/-- The turns of one record in a pass. -/
def atRecord (p n : Nat) (a : Nat × Nat × Nat) : Prop := a.1 = p ∧ a.2.1 = n

/-- The turns of some records in a pass. -/
def inPass (p : Nat) (ns : List Nat) (a : Nat × Nat × Nat) : Prop := a.1 = p ∧ a.2.1 ∈ ns

/-- A pass over a record and then over records of higher numbers. -/
theorem Topology.Decides.cons {p n : Nat} {ns : List Nat} {o q : Option Invalid} (h : t.Decides o (atRecord p n))
    (k : t.Decides q (inPass p ns)) (hn : ∀ m ∈ ns, n < m) : t.Decides (o.or q) (inPass p (n :: ns)) := by
  refine (h.or (fun _ => k) ?_).congr fun r x _ => ?_
  · rintro a b ⟨ha, hna⟩ ⟨hb, hnb⟩
    have := hn _ hnb
    unfold sooner
    omega
  · simp only [atRecord, inPass, List.mem_cons, and_or_left]

/-- A pass over no record. -/
theorem Topology.Decides.nil (p : Nat) : t.Decides none (inPass p []) :=
  ⟨fun _ _ _ _ h => by simp [inPass] at h, nofun, nofun, nofun⟩

/-- The two checks of a record in a pass of two. -/
theorem Topology.Decides.two {p n : Nat} (hp : turnsOf p = 2) {o q : Option Invalid} (h : t.Decides o fun a => a = (p, n, 0))
    (k : o = none → t.Decides q fun a => a = (p, n, 1)) : t.Decides (o.or q) (atRecord p n) := by
  refine (h.or k ?_).congr fun r x _ => ?_
  · rintro _ _ rfl rfl
    simp [sooner]
  · have := checkTurn_lt r x
    simp only [atRecord, Prod.ext_iff]
    constructor
    · rintro (⟨h1, h2, _⟩ | ⟨h1, h2, _⟩) <;> exact ⟨h1, h2⟩
    · rintro ⟨h1, h2⟩
      rw [h1, hp] at this
      omega

/-- The three checks of a record in a pass of three. -/
theorem Topology.Decides.three {p n : Nat} (hp : turnsOf p = 3) {o q s : Option Invalid}
    (h : t.Decides o fun a => a = (p, n, 0)) (k : t.Decides q fun a => a = (p, n, 1))
    (l : t.Decides s fun a => a = (p, n, 2)) : t.Decides (o.or (q.or s)) (atRecord p n) := by
  refine (h.or (fun _ => k.or (fun _ => l) ?_) ?_).congr fun r x _ => ?_
  · rintro _ _ rfl rfl
    simp [sooner]
  · rintro _ _ rfl (rfl | rfl) <;> simp [sooner]
  · have := checkTurn_lt r x
    simp only [atRecord, Prod.ext_iff]
    constructor
    · rintro (⟨h1, h2, _⟩ | ⟨h1, h2, _⟩ | ⟨h1, h2, _⟩) <;> exact ⟨h1, h2⟩
    · rintro ⟨h1, h2⟩
      rw [h1, hp] at this
      omega

theorem findSome?_cons_or {α β : Type} (f : α → Option β) (a : α) (l : List α) :
    (a :: l).findSome? f = (f a).or (l.findSome? f) := by
  rw [List.findSome?_cons]
  cases f a <;> rfl

/-- A pass that makes the checks of each record of an ascending table. -/
theorem Topology.Decides.findSome {α : Type} {p : Nat} {f : Nat × α → Option Invalid} :
    ∀ {l : List (Nat × α)}, (l.map fun r => r.1).Pairwise (· < ·) → (∀ r ∈ l, t.Decides (f r) (atRecord p r.1)) →
      t.Decides (l.findSome? f) (inPass p (l.map fun r => r.1))
  | [], _, _ => .nil p
  | a :: l, ha, h => by
    rw [List.map_cons, List.pairwise_cons] at ha
    rw [findSome?_cons_or]
    exact (h a (.head _)).cons (Topology.Decides.findSome ha.2 fun r hr => h r (.tail _ hr)) ha.1

/-- A pass over its whole table decides all its turns. -/
theorem Topology.Decides.pass {p : Nat} {o : Option Invalid} (h : t.Decides o (inPass p (t.passKeys p))) :
    t.Decides o fun a => a.1 = p :=
  h.congr fun _ _ hf => ⟨fun hp => hp.1, fun hp => ⟨hp, hp ▸ hf.mem_passKeys⟩⟩

/-! ### Tables in ascending number -/

theorem lookup_eq_some_iff {α : Type} {l : List (Nat × α)} (h : (l.map fun r => r.1).Pairwise (· < ·)) {n : Nat} {a : α} :
    l.lookup n = some a ↔ (n, a) ∈ l := by
  induction l with
  | nil => simp
  | cons x xs ih =>
    obtain ⟨m, b⟩ := x
    simp only [List.map_cons, List.pairwise_cons, List.mem_map, forall_exists_index, and_imp,
      forall_apply_eq_imp_iff₂] at h
    rw [lookup_pair, List.mem_cons, Prod.mk.injEq]
    split
    next e =>
      subst e
      have : (n, a) ∉ xs := fun hm => Nat.lt_irrefl _ (h.1 _ hm)
      simp [this, eq_comm]
    next e => simp [e, ih h.2]

theorem lookup_isSome_iff {α : Type} (l : List (Nat × α)) (n : Nat) : (l.lookup n).isSome = true ↔ ∃ a, (n, a) ∈ l := by
  rw [List.lookup_isSome_iff]
  simp

theorem lookup_isSome_false {α : Type} (l : List (Nat × α)) (n : Nat) :
    (l.lookup n).isSome = false ↔ ∀ a, (n, a) ∉ l := by
  rw [← Bool.not_eq_true, lookup_isSome_iff, not_exists]

/-- A number names one record. -/
theorem entry_unique {α : Type} {l : List (Nat × α)} (h : (l.map fun r => r.1).Pairwise (· < ·)) {n : Nat} {a b : α}
    (ha : (n, a) ∈ l) (hb : (n, b) ∈ l) : a = b :=
  Option.some.inj (((lookup_eq_some_iff h).mpr ha).symm.trans ((lookup_eq_some_iff h).mpr hb))

/-- Below a number in an ascending table stand exactly the records before it. -/
theorem mem_before_iff {α : Type} {pre post : List (Nat × α)} {n m : Nat} {a b : α}
    (h : ((pre ++ (n, a) :: post).map fun r => r.1).Pairwise (· < ·)) (hm : (m, b) ∈ pre ++ (n, a) :: post) :
    m < n ↔ (m, b) ∈ pre := by
  rw [List.map_append, List.map_cons, List.pairwise_append, List.pairwise_cons] at h
  obtain ⟨_, ⟨hpost, _⟩, hpre⟩ := h
  have key : ∀ {l : List (Nat × α)}, (m, b) ∈ l → m ∈ l.map fun r => r.1 := fun h =>
    List.mem_map_of_mem (f := fun r : Nat × α => r.1) h
  constructor
  · intro hlt
    rcases List.mem_append.mp hm with hm | hm
    · exact hm
    · rcases List.mem_cons.mp hm with e | hm
      · exact absurd (Prod.ext_iff.mp e).1 (Nat.ne_of_lt hlt)
      · exact absurd (hpost m (key hm)) (Nat.lt_asymm hlt)
  · exact fun hm => hpre m (key hm) n (.head _)

theorem pointKind_eq (h : t.Ascending) (p : Nat) (k : PointKind) :
    (t.pointKind? p == some k) = false ↔ ∀ q, (p, q) ∈ t.points → q.kind ≠ k := by
  simp only [Topology.pointKind?, beq_eq_false_iff_ne, ne_eq, Option.map_eq_some_iff, lookup_eq_some_iff h.points,
    not_exists, not_and]

/-! ### Feeds (01 R8) -/

theorem checkFeeds_cons (used : List Nat) (n : Nat) (f : FeedStatic) (rest : List (Nat × FeedStatic)) :
    checkFeeds t used ((n, f) :: rest) = ((check (t.pointKind? f.point == some .feed) .feed n .feedPoint).or
      (check (!used.contains f.point) .feed n .pointShared)).or (checkFeeds t (f.point :: used) rest) := by
  rw [Option.or_assoc]
  rfl

theorem checkFeeds_decides (ha : t.Ascending) : ∀ {pre rest : List (Nat × FeedStatic)} {used : List Nat},
    t.feeds = pre ++ rest → (∀ p, p ∈ used ↔ ∃ r ∈ pre, r.2.point = p) →
      t.Decides (checkFeeds t used rest) (inPass 0 (rest.map fun r => r.1))
  | _, [], _, _, _ => .nil 0
  | pre, (n, f) :: rest, used, hsplit, hused => by
    have hasc := ha.feeds
    have hm : (n, f) ∈ t.feeds := by rw [hsplit]; simp
    have own : ∀ {g}, (n, g) ∈ t.feeds → g = f := fun h => entry_unique hasc h hm
    have before : ∀ {m g}, (m, g) ∈ t.feeds → (m < n ↔ (m, g) ∈ pre) := fun h =>
      mem_before_iff (hsplit ▸ hasc) (hsplit ▸ h)
    rw [checkFeeds_cons]
    refine (Topology.Decides.two rfl (.check rfl ?_) fun _ => .check rfl ?_).cons
      (checkFeeds_decides ha (pre := pre ++ [(n, f)]) (by simp [hsplit]) fun p => ?_) ?_
    · rw [pointKind_eq ha]
      refine ⟨fun h => .feedPoint n f hm h, fun hf => ?_⟩
      cases hf with
      | feedPoint _ g h hp => exact own h ▸ hp
    · rw [Bool.not_eq_false', List.contains_iff_mem, hused]
      refine ⟨fun ⟨⟨m, e⟩, hr, he⟩ => ?_, fun hf => ?_⟩
      · have hin : (m, e) ∈ t.feeds := by rw [hsplit]; simp [hr]
        exact .sharedFeed n m f e hm hin ((before hin).mpr hr) he
      · cases hf with
        | sharedFeed _ m g e h hin hlt he => exact ⟨(m, e), (before hin).mp hlt, own h ▸ he⟩
    · simp only [List.mem_cons, hused, List.mem_append, List.not_mem_nil, or_false, or_and_right, exists_or,
        exists_eq_left]
      rw [or_comm, eq_comm (a := p)]
    · rw [hsplit, List.map_append, List.map_cons, List.pairwise_append, List.pairwise_cons] at hasc
      exact hasc.2.1.1

/-! ### Segments and their points (01 R8) -/

/-- The checks of one segment in its pass, and the points used after it. -/
def segChecks (t : Topology) (used : List Nat) (n : Nat) (s : SegStatic) : Option Invalid :=
  (check (t.hasFeed s.homeFeed) .segment n .homeFeed).or
    ((check (s.extremity.all fun p => t.pointKind? p == some .extremity) .segment n .extremityPoint).or
      (check (s.extremity.all fun p => !used.contains p) .segment n .pointShared))

theorem checkSegs_cons (used : List Nat) (n : Nat) (s : SegStatic) (rest : List (Nat × SegStatic)) :
    checkSegs t used ((n, s) :: rest) = (segChecks t used n s).or (checkSegs t (s.extremity.toList ++ used) rest) := by
  rw [segChecks, Option.or_assoc, Option.or_assoc]
  simp only [checkSegs]
  cases s.extremity <;> rfl

theorem hasFeed_eq_false (n : Nat) : t.hasFeed n = false ↔ ∀ f, (n, f) ∉ t.feeds := lookup_isSome_false _ _
theorem hasSeg_eq_false (n : Nat) : t.hasSeg n = false ↔ ∀ r, (n, r) ∉ t.segs := lookup_isSome_false _ _

theorem all_eq_false {α : Type} (o : Option α) (p : α → Bool) : o.all p = false ↔ ∃ a, o = some a ∧ p a = false := by
  cases o <;> simp

theorem checkSegs_decides (ha : t.Ascending) : ∀ {pre rest : List (Nat × SegStatic)} {used : List Nat},
    t.segs = pre ++ rest →
    (∀ p, p ∈ used ↔ (∃ r ∈ t.feeds, r.2.point = p) ∨ ∃ r ∈ pre, r.2.extremity = some p) →
      t.Decides (checkSegs t used rest) (inPass 1 (rest.map fun r => r.1))
  | _, [], _, _, _ => .nil 1
  | pre, (n, s) :: rest, used, hsplit, hused => by
    have hasc := ha.segs
    have hm : (n, s) ∈ t.segs := by rw [hsplit]; simp
    have own : ∀ {q}, (n, q) ∈ t.segs → q = s := fun h => entry_unique hasc h hm
    have before : ∀ {m q}, (m, q) ∈ t.segs → (m < n ↔ (m, q) ∈ pre) := fun h =>
      mem_before_iff (hsplit ▸ hasc) (hsplit ▸ h)
    rw [checkSegs_cons]
    refine (Topology.Decides.three rfl (.check rfl ?_) (.check rfl ?_) (.check rfl ?_)).cons
      (checkSegs_decides ha (pre := pre ++ [(n, s)]) (by simp [hsplit]) fun p => ?_) ?_
    · rw [hasFeed_eq_false]
      refine ⟨fun h => .homeFeed n s hm h, fun hf => ?_⟩
      cases hf with
      | homeFeed _ q h hp => exact own h ▸ hp
    · simp only [all_eq_false, pointKind_eq ha]
      refine ⟨fun ⟨p, he, hp⟩ => .extremityPoint n p s hm he hp, fun hf => ?_⟩
      cases hf with
      | extremityPoint _ p q h he hp => exact ⟨p, own h ▸ he, hp⟩
    · simp only [all_eq_false, Bool.not_eq_false', List.contains_iff_mem, hused]
      refine ⟨fun ⟨p, he, hp⟩ => .sharedSegment n p s hm he ?_, fun hf => ?_⟩
      · rcases hp with ⟨⟨m, f⟩, hin, hf⟩ | ⟨⟨m, q⟩, hin, hq⟩
        · exact .inl ⟨m, f, hin, hf⟩
        · have hs : (m, q) ∈ t.segs := by rw [hsplit]; simp [hin]
          exact .inr ⟨m, q, hs, (before hs).mpr hin, hq⟩
      · cases hf with
        | sharedSegment _ p q h he hp =>
          refine ⟨p, own h ▸ he, ?_⟩
          rcases hp with ⟨m, f, hin, hf⟩ | ⟨m, u, hin, hlt, hu⟩
          · exact .inl ⟨(m, f), hin, hf⟩
          · exact .inr ⟨(m, u), (before hin).mp hlt, hu⟩
    · simp only [List.mem_append, Option.mem_toList, hused, List.mem_singleton, or_and_right, exists_or, exists_eq_left]
      rw [or_comm, or_assoc]
    · rw [hsplit, List.map_append, List.map_cons, List.pairwise_append, List.pairwise_cons] at hasc
      exact hasc.2.1.1

/-! ### Valves and degrees (01 R5, R8, R9) -/

theorem sideB_present (v : ValveStatic) :
    (match v.nodeB with
      | .seg m => t.hasSeg m
      | .feed f => t.hasFeed f) = false ↔
      v.kind ≠ .outlet ∧ (∀ r, (v.sideB, r) ∉ t.segs) ∨ v.kind = .outlet ∧ ∀ f, (v.sideB, f) ∉ t.feeds := by
  unfold ValveStatic.nodeB
  cases v.kind <;> simp [hasSeg_eq_false, hasFeed_eq_false]

theorem ValveStatic.nodeB_eq_seg (v : ValveStatic) (n : Nat) : v.nodeB = .seg n ↔ v.kind ≠ .outlet ∧ v.sideB = n := by
  unfold ValveStatic.nodeB
  cases v.kind <;> simp

theorem fallbacks_bad (n : Nat) (v : ValveStatic) :
    (v.fallbacks.all (fun f => t.hasValve f && f != n) && decide v.fallbacks.Nodup) = false ↔
      (∃ m ∈ v.fallbacks, m = n ∨ ∀ u, (m, u) ∉ t.valves) ∨ ¬ v.fallbacks.Nodup := by
  have one : ∀ m, (t.hasValve m && m != n) = false ↔ m = n ∨ ∀ u, (m, u) ∉ t.valves := by
    intro m
    rw [Bool.and_eq_false_iff, or_comm]
    exact or_congr (by simp) (lookup_isSome_false _ _)
  rw [Bool.and_eq_false_iff, List.all_eq_false]
  simp only [Bool.not_eq_true, one, decide_eq_false_iff_not]

theorem checkValve_decides (ha : t.Ascending) {n : Nat} {v : ValveStatic} (hm : (n, v) ∈ t.valves) :
    t.Decides (checkValve t n v) (atRecord 2 n) := by
  have own : ∀ {u}, (n, u) ∈ t.valves → u = v := fun h => entry_unique ha.valves h hm
  refine Topology.Decides.three rfl (.check rfl ?_) (.check rfl ?_) (.check rfl ?_)
  · rw [Bool.and_eq_false_iff, hasSeg_eq_false]
    refine (or_congr_right (sideB_present v)).trans ⟨fun h => .side n v hm h, fun hf => ?_⟩
    cases hf with
    | side _ u h hs => exact own h ▸ hs
  · rw [bne_eq_false_iff_eq, ValveStatic.nodeB_eq_seg]
    refine ⟨fun ⟨hk, hs⟩ => .self n v hm hk hs, fun hf => ?_⟩
    cases hf with
    | self _ u h hk hs => exact own h ▸ ⟨hk, hs⟩
  · rw [fallbacks_bad]
    refine ⟨fun h => .fallback n v hm h, fun hf => ?_⟩
    cases hf with
    | fallback _ u h hf => exact own h ▸ hf

theorem ValveStatic.touches_eq (v : ValveStatic) (n : Nat) :
    v.touches n = (v.sideA == n || (v.kind != .outlet && v.sideB == n)) := by
  rw [Bool.eq_iff_iff]
  simp [ValveStatic.touches, ValveStatic.nodeB_eq_seg]

theorem checkDegree_decides {n : Nat} {r : SegStatic} (hm : (n, r) ∈ t.segs) :
    t.Decides (checkDegree t n) (atRecord 3 n) := by
  refine Topology.Decides.congr (T := fun a => a = (3, n, 0)) (.check rfl ?_) fun q x _ => ?_
  · rw [decide_eq_false_iff_not, Nat.not_le]
    simp only [ValveStatic.touches_eq]
    refine ⟨fun h => .degree n r hm h, fun hf => ?_⟩
    cases hf with
    | degree _ q h hd => exact hd
  · have := checkTurn_lt q x
    simp only [atRecord, Prod.ext_iff]
    constructor
    · exact fun ⟨h1, h2, _⟩ => ⟨h1, h2⟩
    · rintro ⟨h1, h2⟩
      rw [h1] at this
      exact ⟨h1, h2, Nat.lt_one_iff.mp this⟩

end Sys2Proof.Machine
end

section
/-! SUPPORT. The forest of normally open valves holds exactly the joins of its valves, and with it the loaded-topology rule is
settled (01 R7 to R11). -/
namespace Sys2Proof.Machine

variable {t : Topology}

/-! ### Joins -/

theorem Topology.Joined.trans {P : Nat → Prop} {x y z : Node} (h : t.Joined P x y) (k : t.Joined P y z) :
    t.Joined P x z := by
  induction k with
  | same => exact h
  | fromA n v hv hn ho _ ih => exact .fromA n v hv hn ho ih
  | fromB n v hv hn ho _ ih => exact .fromB n v hv hn ho ih

theorem Topology.Joined.symm {P : Nat → Prop} {x y : Node} (h : t.Joined P x y) : t.Joined P y x := by
  induction h with
  | same => exact .same
  | fromA n v hv hn ho _ ih => exact (Topology.Joined.fromB n v hv hn ho .same).trans ih
  | fromB n v hv hn ho _ ih => exact (Topology.Joined.fromA n v hv hn ho .same).trans ih

/-- Joins read the numbers of normally open valves alone. -/
theorem Topology.Joined.mono {P Q : Nat → Prop} (h : ∀ n v, (n, v) ∈ t.openValves → P n → Q n) {x y : Node}
    (k : t.Joined P x y) : t.Joined Q x y := by
  have isOpen : ∀ {n v}, (n, v) ∈ t.valves → v.normal = .opened → (n, v) ∈ t.openValves := fun hv ho =>
    Topology.mem_openValves.mpr ⟨hv, (ValveStatic.normal_opened _).mp ho⟩
  induction k with
  | same => exact .same
  | fromA n v hv hn ho _ ih => exact .fromA n v hv (h n v (isOpen hv ho) hn) ho ih
  | fromB n v hv hn ho _ ih => exact .fromB n v hv (h n v (isOpen hv ho) hn) ho ih

theorem Topology.joined_congr {P Q : Nat → Prop} (h : ∀ n v, (n, v) ∈ t.openValves → (P n ↔ Q n)) (x y : Node) :
    t.Joined P x y ↔ t.Joined Q x y :=
  ⟨.mono fun n v hv => (h n v hv).mp, .mono fun n v hv => (h n v hv).mpr⟩

/-- One more valve joins the two parts at its sides. -/
theorem Topology.joined_insert (ha : t.Ascending) {P : Nat → Prop} {n : Nat} {v : ValveStatic}
    (hv : (n, v) ∈ t.openValves) (x y : Node) :
    t.Joined (fun m => P m ∨ m = n) x y ↔ t.Joined P x y ∨
      t.Joined P x (.seg v.sideA) ∧ t.Joined P v.nodeB y ∨ t.Joined P x v.nodeB ∧ t.Joined P (.seg v.sideA) y := by
  obtain ⟨hmem, hkind⟩ := Topology.mem_openValves.mp hv
  have hopen := (ValveStatic.normal_opened v).mpr hkind
  have lift : ∀ {x y}, t.Joined P x y → t.Joined (fun m => P m ∨ m = n) x y := .mono fun _ _ _ => .inl
  have across : t.Joined (fun m => P m ∨ m = n) (.seg v.sideA) v.nodeB := .fromA n v hmem (.inr rfl) hopen .same
  constructor
  · intro h
    induction h with
    | same => exact .inl .same
    | fromA m w hw hm ho _ ih =>
      rcases hm with hm | rfl
      · exact ih.imp (.fromA m w hw hm ho) (Or.imp (And.imp_right (.fromA m w hw hm ho))
          (And.imp_right (.fromA m w hw hm ho)))
      · cases entry_unique ha.valves hw hmem
        rcases ih with h | ⟨h, _⟩ | ⟨h, _⟩
        · exact .inr (.inl ⟨h, .same⟩)
        · exact .inr (.inl ⟨h, .same⟩)
        · exact .inl h
    | fromB m w hw hm ho _ ih =>
      rcases hm with hm | rfl
      · exact ih.imp (.fromB m w hw hm ho) (Or.imp (And.imp_right (.fromB m w hw hm ho))
          (And.imp_right (.fromB m w hw hm ho)))
      · cases entry_unique ha.valves hw hmem
        rcases ih with h | ⟨h, _⟩ | ⟨h, _⟩
        · exact .inr (.inr ⟨h, .same⟩)
        · exact .inl h
        · exact .inr (.inr ⟨h, .same⟩)
  · rintro (h | ⟨h, k⟩ | ⟨h, k⟩)
    · exact lift h
    · exact ((lift h).trans across).trans (lift k)
    · exact ((lift h).trans across.symm).trans (lift k)

/-! ### The forest (01 R10) -/

/-- The parts hold exactly the joins: each part is closed under them, a node outside every part is joined to itself alone, and
no two parts share a node. -/
structure Forest (parts : List (List Node)) (J : Node → Node → Prop) : Prop where
  closed : ∀ p ∈ parts, ∀ x ∈ p, ∀ y, y ∈ p ↔ J x y
  alone : ∀ x, (∀ p ∈ parts, x ∉ p) → ∀ y, J x y ↔ y = x
  apart : ∀ p ∈ parts, ∀ q ∈ parts, ∀ x, x ∈ p → x ∈ q → p = q

theorem Forest.congr {parts : List (List Node)} {J K : Node → Node → Prop} (h : Forest parts J)
    (hk : ∀ x y, J x y ↔ K x y) : Forest parts K :=
  ⟨fun p hp x hx y => (h.closed p hp x hx y).trans (hk x y), fun x hx y => (hk x y).symm.trans (h.alone x hx y), h.apart⟩

/-- The part of a node is one of the parts that holds it, or the node alone. -/
theorem partOf_cases (parts : List (List Node)) (x : Node) :
    partOf parts x ∈ parts ∧ x ∈ partOf parts x ∨ (∀ p ∈ parts, x ∉ p) ∧ partOf parts x = [x] := by
  unfold partOf
  cases h : parts.find? (·.contains x) with
  | some p => exact .inl ⟨List.mem_of_find?_eq_some h, by simpa using List.find?_some h⟩
  | none => exact .inr ⟨fun p hp => by simpa using List.find?_eq_none.mp h p hp, rfl⟩

theorem Forest.mem_partOf {parts : List (List Node)} {J : Node → Node → Prop} (h : Forest parts J) (x y : Node) :
    y ∈ partOf parts x ↔ J x y := by
  rcases partOf_cases parts x with ⟨hp, hx⟩ | ⟨hx, e⟩
  · exact h.closed _ hp x hx y
  · rw [e, List.mem_singleton, h.alone x hx]

/-- A part that shares a node with the part of `x` is that part. -/
theorem Forest.eq_partOf {parts : List (List Node)} {J : Node → Node → Prop} (h : Forest parts J) {x y : Node}
    {p : List Node} (hp : p ∈ parts) (hy : y ∈ p) (hx : y ∈ partOf parts x) : p = partOf parts x := by
  rcases partOf_cases parts x with ⟨hq, _⟩ | ⟨hn, e⟩
  · exact h.apart p hp _ hq y hy hx
  · rw [e, List.mem_singleton] at hx
    exact absurd (hx ▸ hy) (hn p hp)

/-- Merging the parts of two nodes adds the join of the two. -/
theorem Forest.merge {parts : List (List Node)} {J K : Node → Node → Prop} (h : Forest parts J) (a b : Node)
    (hsymm : ∀ x y, J x y → J y x) (htrans : ∀ x y z, J x y → J y z → J x z)
    (hk : ∀ x y, K x y ↔ J x y ∨ J x a ∧ J b y ∨ J x b ∧ J a y) :
    Forest ((partOf parts a ++ partOf parts b) :: parts.filter fun p => p != partOf parts a && p != partOf parts b)
      K := by
  have ma := h.mem_partOf a
  have mb := h.mem_partOf b
  have mem_rest : ∀ p, p ∈ (parts.filter fun p => p != partOf parts a && p != partOf parts b) ↔
      p ∈ parts ∧ p ≠ partOf parts a ∧ p ≠ partOf parts b := by simp
  have off : ∀ p ∈ parts, p ≠ partOf parts a → p ≠ partOf parts b → ∀ x ∈ p, x ∉ partOf parts a ++ partOf parts b := by
    intro p hp hna hnb x hx hm
    rcases List.mem_append.mp hm with hm | hm
    · exact hna (h.eq_partOf hp hx hm)
    · exact hnb (h.eq_partOf hp hx hm)
  have apart : ∀ x, x ∉ partOf parts a ++ partOf parts b → ∀ y, K x y ↔ J x y := by
    intro x hx y
    rw [List.mem_append, not_or, ma, mb] at hx
    rw [hk]
    refine ⟨?_, .inl⟩
    rintro (k | ⟨k, _⟩ | ⟨k, _⟩)
    · exact k
    · exact absurd (hsymm _ _ k) hx.1
    · exact absurd (hsymm _ _ k) hx.2
  refine ⟨fun p hp x hx y => ?_, fun x hx y => ?_, fun p hp q hq x hxp hxq => ?_⟩
  · rcases List.mem_cons.mp hp with rfl | hp
    · rw [List.mem_append, ma, mb] at hx ⊢
      rw [hk]
      constructor
      · rintro (k | k) <;> rcases hx with hx | hx
        · exact .inl (htrans _ _ _ (hsymm _ _ hx) k)
        · exact .inr (.inr ⟨hsymm _ _ hx, k⟩)
        · exact .inr (.inl ⟨hsymm _ _ hx, k⟩)
        · exact .inl (htrans _ _ _ (hsymm _ _ hx) k)
      · rintro (k | ⟨_, k⟩ | ⟨_, k⟩)
        · exact hx.imp (htrans _ _ _ · k) (htrans _ _ _ · k)
        · exact .inr k
        · exact .inl k
    · obtain ⟨hp, hna, hnb⟩ := (mem_rest p).mp hp
      rw [apart x (off p hp hna hnb x hx), h.closed p hp x hx]
  · have hm := hx _ (.head _)
    rw [apart x hm]
    refine h.alone x (fun p hp hxp => ?_) y
    refine hx p (.tail _ ((mem_rest p).mpr ⟨hp, ?_, ?_⟩)) hxp
    · exact fun e => hm (List.mem_append_left _ (e ▸ hxp))
    · exact fun e => hm (List.mem_append_right _ (e ▸ hxp))
  · rcases List.mem_cons.mp hp with rfl | hp <;> rcases List.mem_cons.mp hq with rfl | hq
    · rfl
    · obtain ⟨hq, hna, hnb⟩ := (mem_rest q).mp hq
      exact absurd hxp (off q hq hna hnb x hxq)
    · obtain ⟨hp, hna, hnb⟩ := (mem_rest p).mp hp
      exact absurd hxq (off p hp hna hnb x hxp)
    · exact h.apart p ((mem_rest p).mp hp).1 q ((mem_rest q).mp hq).1 x hxp hxq

theorem holdsFeed_iff (p : List Node) : holdsFeed p = true ↔ ∃ f, Node.feed f ∈ p := by
  unfold holdsFeed
  rw [List.any_eq_true]
  constructor
  · rintro ⟨x, hx, h⟩
    cases x with
    | feed f => exact ⟨f, hx⟩
    | seg n => cases h
  · rintro ⟨f, hf⟩
    exact ⟨_, hf, rfl⟩

/-! ### Loops and joined feeds (01 R10) -/

/-- The two checks of one normally open valve against the parts before it. -/
def openChecks (parts : List (List Node)) (n : Nat) (v : ValveStatic) : Option Invalid :=
  (check (!(partOf parts (.seg v.sideA)).contains v.nodeB) .valve n .loop).or
    (check (!(holdsFeed (partOf parts (.seg v.sideA)) && holdsFeed (partOf parts v.nodeB))) .valve n .twoFeeds)

theorem growForest_cons (parts : List (List Node)) (n : Nat) (v : ValveStatic) (rest : List (Nat × ValveStatic)) :
    growForest parts ((n, v) :: rest) = match openChecks parts n v with
      | some e => .inl e
      | none => growForest ((partOf parts (.seg v.sideA) ++ partOf parts v.nodeB) ::
          parts.filter fun p => p != partOf parts (.seg v.sideA) && p != partOf parts v.nodeB) rest := by
  simp only [growForest, openChecks, check]
  cases (partOf parts (.seg v.sideA)).contains v.nodeB <;>
    cases holdsFeed (partOf parts (.seg v.sideA)) && holdsFeed (partOf parts v.nodeB) <;> rfl

/-- The checks of a valve, with the joins of the normally open valves of lower number in the parts. -/
theorem openChecks_decides (ha : t.Ascending) {n : Nat} {v : ValveStatic} (hv : (n, v) ∈ t.openValves)
    {parts : List (List Node)} (hf : Forest parts (t.Joined (· < n))) :
    t.Decides (openChecks parts n v) (atRecord 4 n) := by
  obtain ⟨hm, hk⟩ := Topology.mem_openValves.mp hv
  have own : ∀ {u}, (n, u) ∈ t.valves → u = v := fun h => entry_unique ha.valves h hm
  refine Topology.Decides.two rfl (.check rfl ?_) fun _ => .check rfl ?_
  · rw [Bool.not_eq_false', List.contains_iff_mem, hf.mem_partOf]
    refine ⟨fun h => .loop n v hm hk h, fun h => ?_⟩
    cases h with
    | loop _ u h _ hj => exact own h ▸ hj
  · simp only [Bool.not_eq_false', Bool.and_eq_true, holdsFeed_iff, hf.mem_partOf]
    refine ⟨fun ⟨⟨e, he⟩, f, hf⟩ => .twoFeeds n e f v hm hk he hf, fun h => ?_⟩
    cases h with
    | twoFeeds _ e f u h _ he hf => exact own h ▸ ⟨⟨e, he⟩, f, hf⟩

/-- The pass over the normally open valves: its failed check, and the forest it leaves when none fails. -/
theorem growForest_decides (ha : t.Ascending) : ∀ {pre rest : List (Nat × ValveStatic)} {parts : List (List Node)},
    t.openValves = pre ++ rest → Forest parts (t.Joined fun m => m ∈ pre.map fun r => r.1) →
      t.Decides (growForest parts rest).getLeft? (inPass 4 (rest.map fun r => r.1)) ∧
        ∀ forest, growForest parts rest = .inr forest → Forest forest (t.Joined fun _ => True)
  | pre, [], parts, hsplit, hf => by
    refine ⟨.nil 4, fun forest e => ?_⟩
    cases e
    refine hf.congr (Topology.joined_congr fun n v hv => ?_)
    rw [hsplit, List.append_nil] at hv
    exact iff_true_intro (List.mem_map_of_mem (f := fun r => r.1) hv)
  | pre, (n, v) :: rest, parts, hsplit, hf => by
    have hasc : (t.openValves.map fun r => r.1).Pairwise (· < ·) := ha.valves.sublist (List.filter_sublist.map _)
    have hv : (n, v) ∈ t.openValves := by rw [hsplit]; simp
    have below : ∀ m w, (m, w) ∈ t.openValves → (m ∈ pre.map (fun r => r.1) ↔ m < n) := by
      intro m w hw
      rw [mem_before_iff (hsplit ▸ hasc) (hsplit ▸ hw)]
      refine ⟨fun h => ?_, fun h => List.mem_map_of_mem (f := fun r => r.1) h⟩
      obtain ⟨⟨k, u⟩, hu, rfl⟩ := List.mem_map.mp h
      have hin : (k, u) ∈ t.openValves := by rw [hsplit]; exact List.mem_append_left _ hu
      exact entry_unique hasc hin hw ▸ hu
    have block := openChecks_decides ha hv (hf.congr (Topology.joined_congr below))
    have merged := hf.merge (.seg v.sideA) v.nodeB (K := t.Joined fun m => m ∈ (pre ++ [(n, v)]).map fun r => r.1)
      (fun _ _ h => h.symm) (fun _ _ _ h k => h.trans k) fun x y => by
        rw [← Topology.joined_insert ha hv]
        simp
    obtain ⟨next, left⟩ := growForest_decides ha (pre := pre ++ [(n, v)]) (rest := rest) (by simp [hsplit]) merged
    have higher : ∀ m ∈ rest.map (fun r => r.1), n < m := by
      rw [hsplit, List.map_append, List.map_cons, List.pairwise_append, List.pairwise_cons] at hasc
      exact hasc.2.1.1
    rw [growForest_cons]
    refine ⟨?_, fun forest e => ?_⟩
    · have both := block.cons next higher
      cases hb : openChecks parts n v with
      | none => rw [hb] at both; exact both
      | some e => rw [hb] at both; exact both
    · cases hb : openChecks parts n v with
      | none => rw [hb] at e; exact left forest e
      | some _ => rw [hb] at e; cases e

theorem forest_nil : Forest [] (t.Joined fun m => m ∈ ([] : List (Nat × ValveStatic)).map fun r => r.1) where
  closed := nofun
  apart := nofun
  alone := fun x _ y => by
    refine ⟨fun h => ?_, fun e => e ▸ .same⟩
    induction h with
    | same => rfl
    | fromA n v hv hn => cases hn
    | fromB n v hv hn => cases hn

/-! ### Supply trees (01 R11) -/

theorem checkTree_decides (ha : t.Ascending) {n : Nat} {s : SegStatic} (hm : (n, s) ∈ t.segs)
    {forest : List (List Node)} (hf : Forest forest (t.Joined fun _ => True)) :
    t.Decides (checkTree forest n s) (atRecord 5 n) := by
  have own : ∀ {u}, (n, u) ∈ t.segs → u = s := fun h => entry_unique ha.segs h hm
  have fed : holdsFeed (partOf forest (.seg n)) = true ↔ ∃ f, t.Joined (fun _ => True) (.seg n) (.feed f) := by
    simp only [holdsFeed_iff, hf.mem_partOf]
  refine Topology.Decides.two rfl (.check rfl ?_) fun hpass => .check rfl ?_
  · rw [← Bool.not_eq_true, fed, not_exists]
    refine ⟨fun h => .noFeed n s hm h, fun h => ?_⟩
    cases h with
    | noFeed _ _ _ h => exact h
  · obtain ⟨f, hfeed⟩ : ∃ f, t.Joined (fun _ => True) (.seg n) (.feed f) := by
      rw [← fed]
      refine Classical.byContradiction fun hn => ?_
      simp [check, hn] at hpass
    rw [← Bool.not_eq_true, List.contains_iff_mem, hf.mem_partOf]
    refine ⟨fun h => .homeTree n f s hm hfeed h, fun h => ?_⟩
    cases h with
    | homeTree _ _ u h _ hh => exact own h ▸ hh

/-! ### The rule as a whole (01 R7) -/

/-- The forest's pass, then, with the forest it leaves, the trees' pass. -/
theorem forest_decides (ha : t.Ascending) :
    t.Decides (match growForest [] t.openValves with
      | .inl e => some e
      | .inr forest => t.segs.findSome? fun s => checkTree forest s.1 s.2) fun a => a.1 = 4 ∨ a.1 = 5 := by
  obtain ⟨grown, left⟩ := growForest_decides ha (pre := []) (rest := t.openValves) rfl forest_nil
  have later : ∀ a b : Nat × Nat × Nat, a.1 = 4 → b.1 = 5 → ¬ sooner b a := by
    intro a b h k
    unfold sooner
    omega
  cases hg : growForest [] t.openValves with
  | inl e =>
    rw [hg] at grown
    have one := (Topology.Decides.pass (p := 4) grown).or (p := none) (U := fun a => a.1 = 5) nofun later
    exact one
  | inr forest =>
    rw [hg] at grown
    refine (Topology.Decides.pass (p := 4) grown).or (fun _ => Topology.Decides.pass (p := 5) ?_) later
    exact .findSome ha.segs fun r hr => checkTree_decides ha hr (left forest hg)

/-- THE LOADED-TOPOLOGY RULE: the outcome is the failed check that comes first of all. -/
theorem Topology.invalid_decides (ha : t.Ascending) : t.Decides t.invalid fun _ => True := by
  have feeds := (checkFeeds_decides ha (pre := []) (used := []) rfl fun p => by simp).pass (p := 0)
  have segs := (checkSegs_decides ha (pre := []) (used := t.feeds.map (·.2.point)) rfl fun p => by simp).pass (p := 1)
  have valves := (Topology.Decides.findSome ha.valves fun r hr => checkValve_decides ha hr).pass (p := 2)
  have degrees := (Topology.Decides.findSome ha.segs fun r hr => checkDegree_decides hr).pass (p := 3)
  refine (feeds.or (fun _ => segs.or (fun _ => valves.or (fun _ => degrees.or (fun _ => forest_decides ha)
    ?_) ?_) ?_) ?_).congr fun r x _ => ?_
  case refine_5 =>
    have := checkTurn_pass r x
    simp only [iff_true]
    omega
  all_goals
    intro a b h k
    unfold sooner
    omega

/-- A copy in ascending numbers is valid exactly when no record fails a check. -/
theorem Topology.invalid_eq_none_iff (ha : t.Ascending) : t.invalid = none ↔ ∀ r x, ¬ t.Fails r x := by
  have d := Topology.invalid_decides ha
  refine ⟨fun h r x hf => d.clear h r x hf trivial, fun h => ?_⟩
  cases hi : t.invalid with
  | none => rfl
  | some e => exact absurd (d.fails e hi) (h _ _)

/-- A copy in ascending numbers is invalid for the failed check that comes first. -/
theorem Topology.invalid_eq_some_iff (ha : t.Ascending) (e : Invalid) :
    t.invalid = some e ↔ t.Fails e.ref e.reason ∧
      ∀ r x, t.Fails r x → ¬ sooner (checkTurn r x) (checkTurn e.ref e.reason) := by
  have d := Topology.invalid_decides ha
  refine ⟨fun h => ⟨d.fails e h, fun r x hf => d.first e h r x hf trivial⟩, fun ⟨hf, hfirst⟩ => ?_⟩
  cases hi : t.invalid with
  | none => exact absurd hf ((Topology.invalid_eq_none_iff ha).mp hi _ _)
  | some e' =>
    have same := sooner_total (hfirst _ _ (d.fails e' hi)) (d.first e' hi _ _ hf trivial)
    have names := (d.fails e' hi).checkAt_turn
    rw [same, hf.checkAt_turn] at names
    obtain ⟨hr, hx⟩ := Prod.ext_iff.mp names
    cases e
    cases e'
    rw [Option.some.injEq, Invalid.mk.injEq]
    exact ⟨hr.symm, hx.symm⟩

end Sys2Proof.Machine
end

section
/-! PROOF. COMMIT builds the live tables of a valid copy (O19). -/
namespace Sys2Proof.Machine

/-! ### What a commit leaves before the desk's pass -/

/-- The records with the desk's counts and grades derived afresh, as each block's end leaves them (log 12). -/
def Grid.tallied (g : Grid) : Grid := g.recount.regrade

/-- A segment without the values that are derived of calls and conditions. -/
def Segment.bare (s : Segment) : Segment := { s with escapes := 0, noSupply := 0, conds := 0 }

@[simp] theorem Grid.tallied_bare (g : Grid) : g.tallied.segs.map Segment.bare = g.segs.map Segment.bare :=
  map_map_eq fun _ _ => rfl

theorem Grid.tallied_statics (g : Grid) :
    (g.tallied.segs.map fun r => (r.num, r.st)) = g.segs.map fun r => (r.num, r.st) := map_map_eq fun _ _ => rfl

theorem Grid.tallied_calls_nil {g : Grid} (h : g.calls = []) : g.tallied.calls = [] := by
  simp [Grid.tallied, Grid.regrade, Grid.recount, h]

theorem all_false_iff {α : Type} {l : List α} {p : α → Bool} (h : ∀ a ∈ l, p a = false) : l.all p = true ↔ l = [] := by
  cases l with
  | nil => simp
  | cons a l => simp [h a (.head _)]

/-- No feed has a LOCKED point right after a commit. -/
theorem Grid.committed_feedLocked (t : Topology) (g : Grid) (f : Feed) : (g.committed t).feedLocked f = false := by
  unfold Grid.feedLocked
  cases h : (g.committed t).point? f.st.point with
  | none => rfl
  | some p =>
    obtain ⟨r, _, rfl⟩ := List.mem_map.mp (List.mem_of_find?_eq_some h)
    rfl

/-- Verification is complete right after a commit exactly when there is neither valve nor feed to verify. -/
theorem Grid.committed_verified (t : Topology) (g : Grid) :
    (g.committed t).verified = true ↔ t.valves = [] ∧ t.feeds = [] := by
  have hv : ((g.committed t).valves.all fun v => v.verified) = true ↔ t.valves = [] := by
    rw [all_false_iff, Grid.committed, List.map_eq_nil_iff]
    intro v hm
    obtain ⟨r, _, rfl⟩ := List.mem_map.mp hm
    rfl
  have hf : ((g.committed t).feeds.all (g.committed t).feedLocked) = true ↔ t.feeds = [] := by
    rw [all_false_iff fun f _ => g.committed_feedLocked t f, Grid.committed, List.map_eq_nil_iff]
  rw [Grid.verified, Bool.and_eq_true, hv, hf]

theorem Grid.committed_topology (t : Topology) (g : Grid) : (g.committed t).topology = t := by
  obtain ⟨segs, valves, points, feeds⟩ := t
  simp only [Grid.topology, Grid.committed, List.map_map, Topology.mk.injEq]
  exact ⟨List.map_id _, List.map_id _, List.map_id _, List.map_id _⟩

section
variable {g : Grid} (t : Topology) (hl : g.engine.state = .loading)
include hl

/-- Out of service nothing resolves, and outside ADOPT-PENDING nothing adopts: the verification test is the first to act. -/
theorem commit_consequences_eq :
    ((Work.start g).on (Grid.committed t)).consequences g =
      ((((Work.start g).on (Grid.committed t)).settled.settled.settled.verify g).settled).recomputeAll := by
  have unresolved : ∀ w : Work, w.resolveChanges g = w := fun w => by
    unfold Work.resolveChanges
    rw [hl]
    rfl
  unfold Work.consequences
  rw [unresolved, Work.quiesce_of_ne]
  exact nofun

/-- With a valve or a feed to verify the engine stays in VERIFYING. -/
theorem commit_consequences_verifying (hn : ¬ (t.valves = [] ∧ t.feeds = [])) :
    (((Work.start g).on (Grid.committed t)).consequences g).grid = (g.committed t).tallied.tallied.tallied.tallied := by
  have unverified : (((Work.start g).on (Grid.committed t)).settled.settled.settled).verify g =
      ((Work.start g).on (Grid.committed t)).settled.settled.settled := by
    unfold Work.verify
    rw [if_neg]
    rintro ⟨_, h⟩
    exact hn ((g.committed_verified t).mp (Bool.and_eq_true _ _ ▸ h).2)
  rw [commit_consequences_eq t hl, unverified]
  rfl

/-- With nothing to verify the engine enters LIVE, and no tree is recomputed. -/
theorem commit_consequences_live (hn : t.valves = [] ∧ t.feeds = []) :
    (((Work.start g).on (Grid.committed t)).consequences g).grid =
      (((Work.start g).on (Grid.committed t)).settled.settled.settled).enterLive.grid.tallied := by
  have verified : (((Work.start g).on (Grid.committed t)).settled.settled.settled).verify g =
      (((Work.start g).on (Grid.committed t)).settled.settled.settled).enterLive := by
    unfold Work.verify
    rw [if_pos]
    refine ⟨rfl, ?_⟩
    rw [Bool.and_eq_true]
    refine ⟨?_, (g.committed_verified t).mpr hn⟩
    unfold Grid.testDue
    rw [hl]
    rfl
  have noFeeds : ((((Work.start g).on (Grid.committed t)).settled.settled.settled).enterLive.settled).grid.feeds = [] := by
    show (g.committed t).feeds = []
    simp [Grid.committed, hn.2]
  rw [commit_consequences_eq t hl, verified]
  unfold Work.recomputeAll
  split
  · rw [Work.on_grid, noFeeds]
    rfl
  · rfl

/-! ### What a commit leaves -/

/-- The tables a commit leaves before the desk's pass, whichever state the engine is in then. -/
theorem commit_tables :
    let c := (((Work.start g).on (Grid.committed t)).consequences g).grid
    c.engine = { g.engine with
      staging := none, state := if t.valves = [] ∧ t.feeds = [] then .live else .verifying } ∧
    c.valves = (g.committed t).valves ∧ c.points = (g.committed t).points ∧ c.feeds = (g.committed t).feeds ∧
    c.crews = (g.committed t).crews ∧ c.screens = g.screens ∧
    (c.segs.map fun r => (r.num, r.st)) = (g.committed t).segs.map fun r => (r.num, r.st) := by
  have tallied : ((g.committed t).tallied.tallied.tallied.segs.map fun r => (r.num, r.st)) =
      (g.committed t).segs.map fun r => (r.num, r.st) := by
    rw [Grid.tallied_statics, Grid.tallied_statics, Grid.tallied_statics]
  by_cases hn : t.valves = [] ∧ t.feeds = []
  · have trails := Work.resolve_trails .first
      ({ ((Work.start g).on (Grid.committed t)).settled.settled.settled with causes := [] }.setEngine .live)
    rw [commit_consequences_live t hl hn, if_pos hn]
    exact ⟨rfl, rfl, rfl, rfl, rfl, rfl, (Grid.tallied_statics _).trans
      ((map_congr_of_map trails.segs (fun k => (k.1, k.2.1)) fun _ => rfl).trans tallied)⟩
  · rw [commit_consequences_verifying t hl hn, if_neg hn]
    exact ⟨rfl, rfl, rfl, rfl, rfl, rfl, (Grid.tallied_statics _).trans tallied⟩

end

/-- Without an AVAILABLE crew the desk's part is the derivation of counts and grades. -/
theorem Work.desk_of_no_crew {w : Work} (h : ∀ k ∈ w.grid.crews, k.state ≠ .available) : w.desk.grid = w.grid.tallied :=
  dispatch_of_no_crew _ h

/-- The desk's and the monitor's part where no crew is AVAILABLE. -/
theorem Work.wound_of_no_crew (before : Grid) {w : Work} (h : ∀ k ∈ w.grid.crews, k.state ≠ .available) :
    (w.desk.monitored before).grid = { w.grid.tallied.refreshVectors with
      screens := (w.desk.monitored before).grid.screens } := by
  rw [← Work.desk_of_no_crew h]
  rfl

/-- Right after a commit no crew is AVAILABLE. -/
theorem Grid.committed_crews (t : Topology) (g : Grid) : ∀ k ∈ (g.committed t).crews, k.state ≠ .available := by
  intro k hk
  obtain ⟨n, _, rfl⟩ := List.mem_map.mp hk
  exact nofun

/-- The input of a feed at its entry, from the static part of its point: a point that has never locked gives the substitute
value or none (02 R38, R41). -/
theorem newFeed_committed (now : Sec) (points : List (Nat × PointStatic)) (n : Nat) (st : FeedStatic) :
    newFeed (points.map fun r => newPoint now r.1 r.2) n st =
      { num := n, st := st, presence := .unknown, low := 0, high := 0,
        input := (points.lookup st.point).bind fun p => match p.loss with
          | .substitute => some ⟨p.substitute, .substitute⟩
          | .hold | .drop => none,
        stale := true, treeInput := none } := by
  have found : (points.map fun r => newPoint now r.1 r.2).find? (·.num == st.point) =
      (points.lookup st.point).map fun p => newPoint now st.point p := by
    induction points with
    | nil => rfl
    | cons r rs ih =>
      obtain ⟨m, p⟩ := r
      rw [List.map_cons, lookup_pair, List.find?_cons]
      by_cases e : st.point = m
      · rw [if_pos e, show ((newPoint now m p).num == st.point) = true by simp [newPoint, e], e]
        rfl
      · rw [if_neg e, show ((newPoint now m p).num == st.point) = false by simpa [newPoint] using Ne.symm e, ← ih]
  unfold newFeed
  rw [found]
  cases points.lookup st.point with
  | none => rfl
  | some p =>
    cases hp : p.loss <;> simp [newPoint, inputFrom, takeover, hp]

/-! ### Conditions -/

/-- A vector in which no condition holds. -/
theorem Grid.vector_eq_zero {g : Grid} {s : Segment} (h : ∀ c, g.holds s c = false) : g.vector s = 0 := by
  unfold Grid.vector
  simp only [h, Bool.false_eq_true, if_false]
  exact foldl_kept (· = ·) (fun _ => rfl) (fun _ _ _ => Eq.trans) _ (fun _ _ => rfl) _ _

/-- A count of UNVERIFIED valves where none is flagged. -/
theorem Grid.unverifiedCount_eq_zero {g : Grid} (hv : ∀ v ∈ g.valves, v.unverified = false) (n : Nat) :
    g.unverifiedCount n = 0 := by
  unfold Grid.unverifiedCount
  rw [List.length_eq_zero_iff, List.filter_eq_nil_iff]
  intro v hm
  simp [hv v (List.mem_filter.mp hm).1]

/-- With constants in their ranges, no call, no isolation and no UNVERIFIED valve, no condition of an UNKNOWN segment without
estimate and outage holds (08 Table 8-1). -/
theorem Grid.holds_nothing {g : Grid} {s : Segment} (hk : g.engine.consts.ok = true) (hc : g.calls = [])
    (hi : g.isos = []) (hv : ∀ v ∈ g.valves, v.unverified = false) (hs : s.supply = .unknown) (he : s.est = .blank)
    (ho : s.outage = none) (hm : s.meshed = false) (hn : s.escapes = 0) (c : Condition) : g.holds s c = false := by
  have hcluster : 2 ≤ g.engine.consts.cluster := by
    simp only [Constants.ok, within, Bool.and_eq_true, decide_eq_true_eq] at hk
    omega
  have hband : s.band = none := by rw [Segment.band, he]; rfl
  have hunverified := Grid.unverifiedCount_eq_zero hv s.num
  cases c with
  | fed => simp [Grid.holds, hs, Supply.isFed]
  | isolated => simp [Grid.holds, hi]
  | outage => simp [Grid.holds, ho]
  | relighting => simp [Grid.holds, ho]
  | marginLow => simp [Grid.holds, hband]
  | marginShort => simp [Grid.holds, hband]
  | stale => simp [Grid.holds, Grid.staleSeg, hs, Supply.feed?]
  | anomaly => simp [Grid.holds, he, Estimate.blank]
  | meshed => simp [Grid.holds, hm]
  | cluster => simp only [Grid.holds, clustered, hn, decide_eq_false_iff_not]; omega
  | supplyDoubt => simp [Grid.holds, hs, Supply.isFed]
  | overdue => simp [Grid.holds, hc]
  | unverified => simp [Grid.holds, hunverified]

/-- The records at the end of a commit's event, but for the screens' sets. -/
theorem commit_finished {g : Grid} (t : Topology) (hl : g.engine.state = .loading) :
    ((Work.start g).on (Grid.committed t)).finished g =
      { (((Work.start g).on (Grid.committed t)).consequences g).grid.tallied.refreshVectors with
        screens := (((Work.start g).on (Grid.committed t)).finished g).screens } := by
  refine Work.wound_of_no_crew g fun k hk => ?_
  rw [(commit_tables t hl).2.2.2.2.1] at hk
  exact g.committed_crews t k hk

theorem Grid.committed_flags (t : Topology) (g : Grid) : ∀ v ∈ (g.committed t).valves, v.unverified = false := by
  intro v hm
  obtain ⟨r, _, rfl⟩ := List.mem_map.mp hm
  rfl

/-- The segments at the end of a commit that leaves something to verify. -/
theorem commit_finished_segs {g : Grid} {t : Topology} (hl : g.engine.state = .loading)
    (hn : t.valves ≠ [] ∨ t.feeds ≠ []) : (((Work.start g).on (Grid.committed t)).finished g).segs =
      (g.committed t).tallied.tallied.tallied.tallied.tallied.refreshVectors.segs := by
  have hn' : ¬ (t.valves = [] ∧ t.feeds = []) := fun he => hn.elim (· he.1) (· he.2)
  rw [commit_finished t hl, commit_consequences_verifying t hl hn']

/-- But for counts and conditions they are as they entered the table. -/
theorem commit_finished_bare {g : Grid} {t : Topology} (hl : g.engine.state = .loading)
    (hn : t.valves ≠ [] ∨ t.feeds ≠ []) : (((Work.start g).on (Grid.committed t)).finished g).segs.map Segment.bare =
      t.segs.map fun r => newSegment r.1 r.2 := by
  have counted : (g.committed t).tallied.tallied.tallied.tallied.tallied.segs.map Segment.bare =
      t.segs.map fun r => newSegment r.1 r.2 := by
    simp only [Grid.tallied_bare]
    simp only [Grid.committed, List.map_map]
    rfl
  rw [commit_finished_segs hl hn, Grid.refreshVectors, List.map_map]
  refine Eq.trans (List.map_congr_left fun s hs => ?_) counted
  have entered : s.bare.unverified = 0 := by
    have hm := List.mem_map_of_mem (f := Segment.bare) hs
    rw [counted] at hm
    obtain ⟨r, _, e⟩ := List.mem_map.mp hm
    rw [← e]
    rfl
  have flags := Grid.unverifiedCount_eq_zero (g := (g.committed t).tallied.tallied.tallied.tallied.tallied)
    (g.committed_flags t) s.num
  simp only [Function.comp, Segment.bare, flags] at entered ⊢
  rw [entered]

/-- With the constants in their ranges, no call and no isolation they have no count and no condition. -/
theorem commit_finished_clear {g : Grid} {t : Topology} (hl : g.engine.state = .loading)
    (hn : t.valves ≠ [] ∨ t.feeds ≠ []) (hk : g.engine.consts.ok = true) (hc : g.calls = []) (hi : g.isos = []) :
    ∀ r ∈ (((Work.start g).on (Grid.committed t)).finished g).segs, r.escapes = 0 ∧ r.noSupply = 0 ∧ r.conds = 0 := by
  intro r hr
  have bare := List.mem_map_of_mem (f := Segment.bare) hr
  rw [commit_finished_bare hl hn] at bare
  obtain ⟨q, _, entered⟩ := List.mem_map.mp bare
  rw [commit_finished_segs hl hn] at hr
  obtain ⟨s, hs, rfl⟩ := List.mem_map.mp hr
  have nocalls : (g.committed t).tallied.tallied.tallied.tallied.calls = [] :=
    Grid.tallied_calls_nil (Grid.tallied_calls_nil (Grid.tallied_calls_nil (Grid.tallied_calls_nil hc)))
  obtain ⟨p, _, rfl⟩ := List.mem_map.mp hs
  have uncounted : ∀ k n, (g.committed t).tallied.tallied.tallied.tallied.openCalls k n = 0 := fun k n => by
    simp [Grid.openCalls, nocalls]
  refine ⟨uncounted _ _, uncounted _ _, Grid.vector_eq_zero (Grid.holds_nothing hk (Grid.tallied_calls_nil nocalls) hi
    (g.committed_flags t) ?_ ?_ ?_ ?_ (uncounted _ _))⟩
  · exact (congrArg Segment.supply entered).symm
  · exact (congrArg Segment.est entered).symm
  · exact (congrArg Segment.outage entered).symm
  · exact (congrArg Segment.meshed entered).symm

/-! ### The request -/

theorem exec_commit (tag : Byte) (s : State) :
    exec (.commit tag) s = .next (answerFrame ⟨0x13, tag, []⟩ (atGrid doCommit) s) := rfl

theorem exec_commit_told {tag : Byte} {s : State} {c : Code} {body : List Byte} (h : doCommit s.grid = tell s.grid c body) :
    exec (.commit tag) s = .next (s.told ⟨0x13, tag, []⟩ c body) := by
  rw [exec_commit, answerFrame_of_unchanged _ _ _ (by rw [h]; rfl) (by rw [h]; rfl), h]
  rfl

/-- The screens' definitions stand. -/
theorem commit_screens {g : Grid} (t : Topology) (hl : g.engine.state = .loading) :
    ((((Work.start g).on (Grid.committed t)).finished g).screens.map fun r =>
      { r with matched := [], entered := [], left := [] }) =
      g.screens.map fun r => { r with matched := [], entered := [], left := [] } := by
  obtain ⟨_, _, _, _, _, screens, _⟩ := commit_tables t hl
  exact (Work.wound_follows g _).screens.trans (by rw [screens])

/-- The static part of the live records at the end of a commit is the copy's. -/
theorem commit_topology {g : Grid} (t : Topology) (hl : g.engine.state = .loading) :
    (((Work.start g).on (Grid.committed t)).finished g).topology = t := by
  obtain ⟨_, valves, points, feeds, _, _, segs⟩ := commit_tables t hl
  have hs := (map_congr_of_map (f' := fun r : Segment => (r.num, r.st))
    (Work.wound_follows g (((Work.start g).on (Grid.committed t)).consequences g)).segs (fun k => (k.1, k.2.1))
    fun _ => rfl).trans segs
  calc (((Work.start g).on (Grid.committed t)).finished g).topology
      = (g.committed t).topology := by
        refine Topology.mk.injEq .. ▸ ⟨hs, ?_, ?_, ?_⟩
        · rw [commit_finished t hl]; exact congrArg _ valves
        · rw [commit_finished t hl]; exact congrArg _ points
        · rw [commit_finished t hl]; exact congrArg _ feeds
    _ = t := g.committed_topology t

/-- Settles O19: the rule decides the copy, and the commit's event is computed stage by stage. -/
theorem commitBuildsTables : Obligations.CommitBuildsTables := by
  intro tag topo c s hl hstg
  have staged : s.grid.staged = ⟨topo, c⟩ := by unfold Grid.staged; rw [hstg]; rfl
  have loading : ¬ s.grid.engine.state ≠ .loading := Classical.not_not.mpr hl
  refine ⟨fun ha => ⟨Topology.invalid_eq_none_iff ha, Topology.invalid_eq_some_iff ha⟩, fun hc => ?_, fun e hc he => ?_,
    fun hc hv => ?_⟩
  · refine exec_commit_told (body := []) ?_
    unfold doCommit
    rw [if_neg loading, staged, if_pos hc]
    rfl
  · refine exec_commit_told ?_
    unfold doCommit
    rw [if_neg loading, staged, if_neg (Classical.not_not.mpr hc)]
    simp only [he]
    rfl
  · have served : doCommit s.grid = ((Work.start s.grid).on (Grid.committed topo)).answered s.grid .done fun r =>
        be 2 r.segs.length ++ be 2 r.valves.length ++ be 2 r.points.length ++ byteOf r.feeds.length := by
      unfold doCommit
      rw [if_neg loading, staged, if_neg (Classical.not_not.mpr hc)]
      simp only [hv]
    have grid : (answerFrame ⟨0x13, tag, []⟩ (atGrid doCommit) s).grid =
        ((Work.start s.grid).on (Grid.committed topo)).finished s.grid := by
      rw [answerFrame_grid, served, answered_grid]
    obtain ⟨engine, valves, points, feeds, crews, _, _⟩ := commit_tables topo hl
    have top := commit_topology topo hl
    refine ⟨_, exec_commit tag s, ?_⟩
    rw [grid]
    refine ⟨?_, top, ?_, ?_, ?_, fun hn => ?_, fun hn hk hcalls hisos => ?_, ?_, commit_screens topo hl, ?_⟩
    · rw [commit_finished topo hl]; exact engine
    · rw [commit_finished topo hl]
      refine Eq.trans valves (List.map_congr_left fun r _ => ?_)
      unfold newValve ValveStatic.normal ValveKind.normal
      cases r.2.kind <;> rfl
    · rw [commit_finished topo hl]; exact points
    · rw [commit_finished topo hl]; exact crews
    · exact commit_finished_bare hl hn
    · exact commit_finished_clear hl hn hk hcalls hisos
    · rw [commit_finished topo hl]
      exact Eq.trans feeds (List.map_congr_left fun r _ => newFeed_committed _ _ _ _)
    · unfold State.Replies
      rw [answerFrame_transmit, served, answered_reply]
      have hs := congrArg (fun t => t.segs.length) top
      have hv := congrArg (fun t => t.valves.length) top
      have hp := congrArg (fun t => t.points.length) top
      have hf := congrArg (fun t => t.feeds.length) top
      simp only [Grid.topology, List.length_map] at hs hv hp hf
      rw [hs, hv, hp, hf]
      rfl

end Sys2Proof.Machine
end

section
/-! SUPPORT. What a change of supply does to an outage part, and what a recomputation does to its stable count. -/
namespace Sys2Proof.Machine

/-! ### A change of supply state (03 R53, 06 R109 to R111) -/

/-- A segment that becomes UNFED loses its estimate, and its outage opens or is lost again. -/
theorem Segment.resolved_lost (net : Sec) (k : Nat) (c : OutageCause) (m : Bool) {s : Segment} (h : s.supply ≠ .unfed) :
    s.resolved net k c .unfed m =
      { s with supply := .unfed, meshed := m, est := .blank }.loseSupply net c := by
  unfold Segment.resolved
  cases hs : s.supply with
  | unfed => exact absurd hs h
  | unknown => rfl
  | fed l => rfl

/-- A segment that becomes FED from UNFED regains supply. -/
theorem Segment.resolved_regained (net : Sec) (k : Nat) (c : OutageCause) (l : SupplyLink) (m : Bool) {s : Segment}
    (h : s.supply = .unfed) :
    s.resolved net k c (.fed l) m = { s with supply := .fed l, meshed := m }.regainSupply k := by
  unfold Segment.resolved
  rw [h]

/-- Any other change of a known supply leaves estimate and outage. -/
theorem Segment.resolved_kept (net : Sec) (k : Nat) (c : OutageCause) {sup : Supply} (m : Bool) {s : Segment}
    (h : s.supply = .unfed ∧ sup = .unfed ∨ s.supply ≠ .unfed ∧ sup.isFed = true) :
    s.resolved net k c sup m = { s with supply := sup, meshed := m } := by
  unfold Segment.resolved
  rcases h with ⟨hs, rfl⟩ | ⟨hs, hp⟩
  · rw [hs]
  · cases sup with
    | unfed => cases hp
    | unknown => cases hp
    | fed l =>
      cases e : s.supply with
      | unfed => exact absurd e hs
      | unknown => rfl
      | fed l' => rfl

theorem Segment.loseSupply_opens (net : Sec) (c : OutageCause) {s : Segment} (h : s.outage = none) :
    s.loseSupply net c = { s with outage := some (Outage.opened net c s) } := by
  unfold Segment.loseSupply
  rw [h]

theorem Segment.loseSupply_again (net : Sec) (c : OutageCause) {s : Segment} {p : Outage} (h : s.outage = some p)
    (hp : p.stage ≠ .off) : s.loseSupply net c = { s with outage := some (p.lostAgain c s) } := by
  unfold Segment.loseSupply
  rw [h]
  exact if_neg hp

theorem Segment.regainSupply_none (k : Nat) {s : Segment} (h : s.outage = none) : s.regainSupply k = s := by
  unfold Segment.regainSupply
  rw [h]

theorem Segment.regainSupply_off (k : Nat) {s : Segment} {p : Outage} (h : s.outage = some p) (hp : p.stage = .off) :
    s.regainSupply k =
      { s with outage := some { p with stage := .repressurizing, stable := 0, target := some k } } := by
  unfold Segment.regainSupply
  rw [h]
  exact if_pos hp

/-- Losing supply touches the outage alone. -/
theorem Segment.loseSupply_frame (net : Sec) (c : OutageCause) (s : Segment) :
    ∃ o, s.loseSupply net c = { s with outage := o } := by
  unfold Segment.loseSupply
  split
  · exact ⟨_, rfl⟩
  · split
    · exact ⟨s.outage, rfl⟩
    · exact ⟨_, rfl⟩

/-- Regaining supply touches the outage alone. -/
theorem Segment.regainSupply_frame (k : Nat) (s : Segment) : ∃ o, s.regainSupply k = { s with outage := o } := by
  unfold Segment.regainSupply
  split
  · split
    · exact ⟨_, rfl⟩
    · exact ⟨s.outage, rfl⟩
  · exact ⟨s.outage, rfl⟩

/-- A resolution touches supply, MESHED, estimate and outage of a segment alone. -/
theorem Segment.resolved_frame (net : Sec) (k : Nat) (c : OutageCause) (sup : Supply) (m : Bool) (s : Segment) :
    ∃ e o, s.resolved net k c sup m = { s with supply := sup, meshed := m, est := e, outage := o } := by
  unfold Segment.resolved
  split
  · exact ⟨s.est, s.outage, rfl⟩
  · obtain ⟨o, h⟩ := Segment.regainSupply_frame k { s with supply := _, meshed := m }
    exact ⟨s.est, o, h⟩
  · obtain ⟨o, h⟩ := Segment.loseSupply_frame net c { s with supply := .unfed, meshed := m, est := .blank }
    exact ⟨.blank, o, h⟩
  · obtain ⟨o, h⟩ := Segment.loseSupply_frame net c { s with supply := .unfed, meshed := m, est := .blank }
    exact ⟨.blank, o, h⟩
  · exact ⟨s.est, s.outage, rfl⟩

theorem Segment.resolved_keeps (net : Sec) (k : Nat) (c : OutageCause) (sup : Supply) (m : Bool) (s : Segment) :
    (s.resolved net k c sup m).num = s.num ∧ (s.resolved net k c sup m).st = s.st ∧
      (s.resolved net k c sup m).supply = sup ∧ (s.resolved net k c sup m).meshed = m ∧
      (s.resolved net k c sup m).unrelit = s.unrelit ∧ (s.resolved net k c sup m).summary = s.summary := by
  obtain ⟨e, o, h⟩ := s.resolved_frame net k c sup m
  rw [h]
  exact ⟨rfl, rfl, rfl, rfl, rfl, rfl⟩

theorem Segment.resolved_lost_est (net : Sec) (k : Nat) (c : OutageCause) (m : Bool) {s : Segment}
    (h : s.supply ≠ .unfed) : (s.resolved net k c .unfed m).est = .blank := by
  rw [s.resolved_lost net k c m h]
  obtain ⟨o, e⟩ := Segment.loseSupply_frame net c { s with supply := .unfed, meshed := m, est := .blank }
  rw [e]

theorem Segment.resolved_lost_opens (net : Sec) (k : Nat) (c : OutageCause) (m : Bool) {s : Segment}
    (h : s.supply ≠ .unfed) (ho : s.outage = none) :
    (s.resolved net k c .unfed m).outage = some (Outage.opened net c s) := by
  rw [s.resolved_lost net k c m h, Segment.loseSupply_opens net c (by exact ho)]
  rfl

theorem Segment.resolved_lost_again (net : Sec) (k : Nat) (c : OutageCause) (m : Bool) {s : Segment} {p : Outage}
    (h : s.supply ≠ .unfed) (ho : s.outage = some p) (hp : p.stage ≠ .off) :
    (s.resolved net k c .unfed m).outage = some (p.lostAgain c s) := by
  rw [s.resolved_lost net k c m h, Segment.loseSupply_again net c (by exact ho) hp]
  rfl

theorem Segment.resolved_regained_est (net : Sec) (k : Nat) (c : OutageCause) (l : SupplyLink) (m : Bool) {s : Segment}
    (h : s.supply = .unfed) : (s.resolved net k c (.fed l) m).est = s.est := by
  rw [s.resolved_regained net k c l m h]
  obtain ⟨o, e⟩ := Segment.regainSupply_frame k { s with supply := .fed l, meshed := m }
  rw [e]

theorem Segment.resolved_regained_none (net : Sec) (k : Nat) (c : OutageCause) (l : SupplyLink) (m : Bool) {s : Segment}
    (h : s.supply = .unfed) (ho : s.outage = none) : (s.resolved net k c (.fed l) m).outage = none := by
  rw [s.resolved_regained net k c l m h, Segment.regainSupply_none k (by exact ho)]
  exact ho

theorem Segment.resolved_regained_off (net : Sec) (k : Nat) (c : OutageCause) (l : SupplyLink) (m : Bool) {s : Segment}
    {p : Outage} (h : s.supply = .unfed) (ho : s.outage = some p) (hp : p.stage = .off) :
    (s.resolved net k c (.fed l) m).outage =
      some { p with stage := .repressurizing, stable := 0, target := some k } := by
  rw [s.resolved_regained net k c l m h, Segment.regainSupply_off k (by exact ho) hp]

/-! ### The stable count (06 R112, R113) -/

/-- The parts a recomputation leaves as they are. -/
def Outage.Idle (p : Outage) (band : Option Band) (counts : Bool) : Prop :=
  p.stage = .off ∨ p.stage = .repressurizing ∧ band = none ∨
    p.stage = .repressurizing ∧ band ≠ some .short ∧ counts = false ∨ p.stage = .relighting ∧ band ≠ some .short

theorem Segment.stableUpdate_none (k : Nat) (net : Sec) (counts : Bool) {s : Segment} (h : s.outage = none) :
    s.stableUpdate k net counts = s := by
  unfold Segment.stableUpdate
  rw [h]

theorem Segment.stableUpdate_idle (k : Nat) (net : Sec) {counts : Bool} {s : Segment} {p : Outage}
    (h : s.outage = some p) (idle : p.Idle s.band counts) : s.stableUpdate k net counts = s := by
  unfold Segment.stableUpdate
  rw [h]
  rcases idle with hp | ⟨hp, hb⟩ | ⟨hp, hb, rfl⟩ | ⟨hp, hb⟩
  · simp only [hp]
  · simp only [hp, hb]
  · cases e : s.band with
    | none => simp only [hp]
    | some x =>
      cases x with
      | short => exact absurd e hb
      | normal => simp [hp]
      | low => simp [hp]
  · simp only [hp]

/-- A SHORT band sets the count to 0 and takes the target in force. -/
theorem Segment.stableUpdate_short (k : Nat) (net : Sec) (counts : Bool) {s : Segment} {p : Outage}
    (h : s.outage = some p) (hp : p.stage ≠ .off) (hb : s.band = some .short) :
    s.stableUpdate k net counts = { s with outage := some { p with stable := 0, target := some k } } := by
  unfold Segment.stableUpdate
  rw [h]
  cases e : p.stage with
  | off => exact absurd e hp
  | repressurizing => simp only [hb, e]
  | relighting => simp only [hb, e]

/-- A sample with another band counts once, up to 15, and may reach the target. -/
theorem Segment.stableUpdate_counts (k : Nat) (net : Sec) {s : Segment} {p : Outage} {x : Band} {target : Nat}
    (h : s.outage = some p) (hp : p.stage = .repressurizing) (hb : s.band = some x) (hx : x ≠ .short)
    (ht : p.target = some target) :
    s.stableUpdate k net true =
      if target ≤ min 15 (p.stable + 1) then s.enterRelighting net { p with stable := min 15 (p.stable + 1) }
      else { s with outage := some { p with stable := min 15 (p.stable + 1) } } := by
  unfold Segment.stableUpdate
  rw [h]
  cases x with
  | short => exact absurd rfl hx
  | normal => simp [hp, hb, ht]
  | low => simp [hp, hb, ht]

theorem Segment.enterRelighting_pos (net : Sec) (s : Segment) {p : Outage} (h : 0 < p.off) :
    s.enterRelighting net p = { s with outage := some { p with stage := .relighting } } :=
  if_neg (Nat.pos_iff_ne_zero.mp h)

/-- With nobody off the outage ends as it enters RELIGHTING. -/
theorem Segment.enterRelighting_zero (net : Sec) (s : Segment) {p : Outage} (h : p.off = 0) :
    s.enterRelighting net p =
      { s with outage := none, summary := some ⟨p.cause, p.started, net, p.peak, p.relit, 0, p.repeats⟩ } :=
  if_pos h

/-- Entry into RELIGHTING keeps the estimate and the off count of the part that enters. -/
theorem Segment.enterRelighting_off (net : Sec) (p : Outage) (s : Segment) :
    (s.enterRelighting net p).est = s.est ∧ (s.enterRelighting net p).off = p.off := by
  by_cases h : p.off = 0
  · rw [Segment.enterRelighting_zero net s h]
    exact ⟨rfl, h.symm⟩
  · rw [Segment.enterRelighting_pos net s (Nat.pos_of_ne_zero h)]
    exact ⟨rfl, rfl⟩

/-- The stable count has no part in the estimate, and the customers on supply stand: an outage ends only with nobody off. -/
theorem Segment.stableUpdate_off (k : Nat) (net : Sec) (counts : Bool) (s : Segment) :
    (s.stableUpdate k net counts).est = s.est ∧ (s.stableUpdate k net counts).off = s.off := by
  have off : ∀ p, s.outage = some p → s.off = p.off := fun p h => by unfold Segment.off; rw [h]
  unfold Segment.stableUpdate
  split
  · exact ⟨rfl, rfl⟩
  next p hp =>
    rw [off p hp]
    split
    case h_3 =>
      split
      · dsimp only
        split
        · exact Segment.enterRelighting_off net _ s
        · exact ⟨rfl, rfl⟩
      · exact ⟨rfl, off p hp⟩
    case h_2 | h_5 => exact ⟨rfl, rfl⟩
    all_goals exact ⟨rfl, off p hp⟩

/-- The stable count leaves number, static part, supply state and customers on supply of a segment. -/
theorem Segment.stableUpdate_keeps (k : Nat) (net : Sec) (counts : Bool) (s : Segment) :
    (s.stableUpdate k net counts).num = s.num ∧ (s.stableUpdate k net counts).st = s.st ∧
      (s.stableUpdate k net counts).supply = s.supply ∧ (s.stableUpdate k net counts).onSupply = s.onSupply := by
  have keys := s.stableUpdate_keys k net counts
  have supplied := s.stableUpdate_supplied k net counts
  simp only [Prod.mk.injEq, Segment.supplied] at keys supplied
  obtain ⟨num, st, unrelit⟩ := keys
  refine ⟨num, st, supplied.2, ?_⟩
  unfold Segment.onSupply
  rw [st, unrelit, (s.stableUpdate_off k net counts).2]

end Sys2Proof.Machine
end

section
/-! SUPPORT. The supply tree of a feed: its members stand by distance, each behind its parent. -/
namespace Sys2Proof.Machine

/-! ### Sorting -/

theorem insertBy_perm {α : Type} (key : α → Nat) (x : α) (l : List α) : (insertBy key x l).Perm (x :: l) := by
  induction l with
  | nil => exact .refl _
  | cons y ys ih =>
    unfold insertBy
    split
    · exact .refl _
    · exact (ih.cons y).trans (.swap x y ys)

theorem sortBy_perm {α : Type} (key : α → Nat) (l : List α) : (sortBy key l).Perm l := by
  induction l with
  | nil => exact .refl _
  | cons x l ih => exact (insertBy_perm key x _).trans (ih.cons x)

theorem insertBy_sorted {α : Type} (key : α → Nat) (x : α) {l : List α} (h : l.Pairwise (key · ≤ key ·)) :
    (insertBy key x l).Pairwise (key · ≤ key ·) := by
  induction l with
  | nil => exact List.pairwise_singleton _ _
  | cons y ys ih =>
    obtain ⟨hy, hys⟩ := List.pairwise_cons.mp h
    unfold insertBy
    split
    next le =>
      refine List.pairwise_cons.mpr ⟨fun z hz => ?_, h⟩
      rcases List.mem_cons.mp hz with rfl | hz
      · exact le
      · exact Nat.le_trans le (hy z hz)
    next lt =>
      refine List.pairwise_cons.mpr ⟨fun z hz => ?_, ih hys⟩
      rcases (mem_insertBy key x z ys).mp hz with rfl | hz
      · omega
      · exact hy z hz

theorem sortBy_sorted {α : Type} (key : α → Nat) (l : List α) : (sortBy key l).Pairwise (key · ≤ key ·) := by
  induction l with
  | nil => exact .nil
  | cons x l ih => exact insertBy_sorted key x ih

/-! ### Members of a tree (01 R16) -/

theorem Grid.tree_perm (g : Grid) (f : Nat) : (g.tree f).Perm (g.segs.filter fun s => s.supply.feed? == some f) :=
  sortBy_perm _ _

@[simp] theorem Grid.mem_tree {g : Grid} {f : Nat} {s : Segment} :
    s ∈ g.tree f ↔ s ∈ g.segs ∧ s.supply.feed? = some f := by
  rw [(g.tree_perm f).mem_iff, List.mem_filter, beq_iff_eq]

theorem Grid.tree_nodup {g : Grid} (hd : (g.segs.map fun r => r.num).Nodup) (f : Nat) :
    ((g.tree f).map fun r => r.num).Nodup :=
  ((g.tree_perm f).map _).nodup_iff.mpr (hd.sublist (List.filter_sublist.map _))

theorem Grid.tree_sorted (g : Grid) (f : Nat) : (g.tree f).Pairwise (Segment.dist · ≤ Segment.dist ·) := sortBy_sorted _ _

/-- In a list of segments without a number twice, a number stands for one segment. -/
theorem seg_eq_of_num {l : List Segment} (hd : (l.map fun r => r.num).Nodup) {a b : Segment} (ha : a ∈ l) (hb : b ∈ l)
    (h : a.num = b.num) : a = b :=
  Option.some.inj ((find_num_of_mem (fun r : Segment => r.num) hd ha h).symm.trans (find_num_of_mem _ hd hb rfl))

/-! ### Parents (01 R16) -/

theorem Segment.parent?_eq_some {s : Segment} {x : Node} :
    s.parent? = some x ↔ ∃ l, s.supply = .fed l ∧ l.parent = x := by
  unfold Segment.parent?
  split <;> simp_all

theorem Supply.feed?_eq_some {sup : Supply} {f : Nat} : sup.feed? = some f ↔ ∃ l, sup = .fed l ∧ l.feed = f := by
  cases sup <;> simp [Supply.feed?]

/-- In service the parent of a segment is in the table, is supplied by the same feed, and lies nearer to it. -/
theorem Grid.NetworkSound.parent {g : Grid} (ns : g.NetworkSound) (inService : g.engine.state.inService = true)
    {s : Segment} (hs : s ∈ g.segs) {m : Nat} (hp : s.parent? = some (.seg m)) :
    ∃ q ∈ g.segs, q.num = m ∧ q.supply.feed? = s.supply.feed? ∧ q.dist < s.dist := by
  obtain ⟨l, hl, hm⟩ := Segment.parent?_eq_some.mp hp
  have fed : supplyIn g.reachedSegs s.num = .fed l := (ns.supply inService s hs).symm.trans hl
  obtain ⟨_, _, _, nearer, _, feed⟩ := Grid.fed_link ns.valves fed
  rw [hm] at nearer feed
  obtain ⟨l', hl', dist⟩ := nearer
  obtain ⟨q, hq, rfl⟩ := List.mem_map.mp ((Grid.reachedSegs_within ns.valves).near m l' (supplyIn_eq_fed.mp hl')).1
  have hq' : q.supply = .fed l' := (ns.supply inService q hq).trans hl'
  refine ⟨q, hq, rfl, ?_, ?_⟩
  · rw [hl, hq']
    simp [Supply.feed?, feed, hl']
  · unfold Segment.dist
    rw [hl, hq']
    exact Nat.lt_of_succ_le (Nat.le_of_eq dist.symm)

/-- No segment of a number that occurs twice, and the parent of each member that has one stands in front of it: the order
in which a tree is worked through. -/
structure ParentsFirst (tree : List Segment) : Prop where
  nodup : (tree.map fun r => r.num).Nodup
  before : ∀ pre s post, tree = pre ++ s :: post → ∀ m, s.parent? = some (.seg m) → m ∈ pre.map fun r => r.num

theorem Grid.NetworkSound.parentsFirst {g : Grid} (ns : g.NetworkSound) (inService : g.engine.state.inService = true)
    (f : Nat) : ParentsFirst (g.tree f) := by
  refine ⟨Grid.tree_nodup (nodup_of_ascending ns.segs) f, fun pre s post split m hp => ?_⟩
  obtain ⟨hs, hf⟩ := Grid.mem_tree.mp (split ▸ by simp : s ∈ g.tree f)
  obtain ⟨q, hq, rfl, feed, near⟩ := ns.parent inService hs hp
  have sorted := g.tree_sorted f
  have mem : q ∈ g.tree f := Grid.mem_tree.mpr ⟨hq, feed.trans hf⟩
  rw [split] at sorted mem
  rcases List.mem_append.mp mem with mem | mem
  · exact List.mem_map_of_mem mem
  · obtain ⟨_, tail, _⟩ := List.pairwise_append.mp sorted
    rcases List.mem_cons.mp mem with rfl | mem
    · omega
    · have := (List.pairwise_cons.mp tail).1 q mem
      omega

/-- A front part of such a list is one. -/
theorem ParentsFirst.front_part {a b : List Segment} (h : ParentsFirst (a ++ b)) : ParentsFirst a where
  nodup := by
    have nodup := h.nodup
    rw [List.map_append, List.nodup_append] at nodup
    exact nodup.1
  before pre s post e m hp := h.before pre s (post ++ b) (by rw [e]; simp) m hp

/-- No member is the child of one that stands at its place or behind it. -/
theorem ParentsFirst.not_child {pre post : List Segment} {s c : Segment} (h : ParentsFirst (pre ++ s :: post))
    (hc : c ∈ s :: post) : s.parent? ≠ some (.seg c.num) := by
  intro hp
  have front := h.before pre s post rfl c.num hp
  have nodup := h.nodup
  rw [List.map_append, List.nodup_append] at nodup
  obtain ⟨_, _, apart⟩ := nodup
  exact apart c.num front c.num (List.mem_map_of_mem hc) rfl

end Sys2Proof.Machine
end

section
/-! SUPPORT. The recomputation of a tree: flows from the far end, pressures from the feed, and the estimate both leave. -/
namespace Sys2Proof.Machine

/-! ### Flows (03 R55) -/

/-- The flow of a segment in a list of flows, 0 for a segment that is not in it. -/
def flowIn (flows : List (Segment × Nat)) (n : Nat) : Nat := ((flows.find? fun sf => sf.1.num == n).map (·.2)).getD 0

/-- The flow of a segment in front of its tree's further flows. -/
def flowOver (weather : Nat) (s : Segment) (below : List (Segment × Nat)) : Nat :=
  min Config.maxFlow
    (demandOf weather s + ((below.filter fun c => c.1.parent? == some (.seg s.num)).map (·.2)).sum)

theorem flowsOf_cons (weather : Nat) (s : Segment) (tree : List Segment) :
    flowsOf weather (s :: tree) = (s, flowOver weather s (flowsOf weather tree)) :: flowsOf weather tree := rfl

@[simp] theorem flowsOf_fst (weather : Nat) (tree : List Segment) : (flowsOf weather tree).map (·.1) = tree := by
  induction tree with
  | nil => rfl
  | cons s tree ih => rw [flowsOf_cons, List.map_cons, ih]

theorem flowIn_of_mem {flows : List (Segment × Nat)} (hd : (flows.map fun sf => sf.1.num).Nodup) {s : Segment} {q : Nat}
    (h : (s, q) ∈ flows) : flowIn flows s.num = q := by
  unfold flowIn
  rw [find_num_of_mem (fun sf : Segment × Nat => sf.1.num) hd h rfl]
  rfl

theorem flowsOf_nums (weather : Nat) (tree : List Segment) :
    ((flowsOf weather tree).map fun sf => sf.1.num) = tree.map fun r => r.num := by
  have nums := congrArg (List.map fun r => r.num) (flowsOf_fst weather tree)
  rw [List.map_map] at nums
  exact nums

/-- Each member stands in the list of flows, with the flow the list gives it. -/
theorem mem_flowsOf {weather : Nat} {tree : List Segment} (hd : (tree.map fun r => r.num).Nodup) {s : Segment}
    (hs : s ∈ tree) : (s, flowIn (flowsOf weather tree) s.num) ∈ flowsOf weather tree := by
  obtain ⟨⟨s, q⟩, hq, rfl⟩ := List.mem_map.mp (by rw [flowsOf_fst]; exact hs : s ∈ (flowsOf weather tree).map (·.1))
  rwa [flowIn_of_mem (by rwa [flowsOf_nums]) hq]

/-- Each member's flow is formed from the flows of its children, wherever they stand in the tree. -/
theorem flowsOf_mem {weather : Nat} {pre suf : List Segment} (h : ParentsFirst (pre ++ suf)) :
    ∀ sf ∈ flowsOf weather suf, sf.2 = flowOver weather sf.1 (flowsOf weather suf) := by
  induction suf generalizing pre with
  | nil => exact fun _ h => absurd h List.not_mem_nil
  | cons x suf ih =>
    have tail : ParentsFirst ((pre ++ [x]) ++ suf) := by rwa [List.append_assoc]
    rw [flowsOf_cons]
    intro sf hsf
    have skip : flowOver weather sf.1 ((x, flowOver weather x (flowsOf weather suf)) :: flowsOf weather suf) =
        flowOver weather sf.1 (flowsOf weather suf) := by
      have mem : sf.1 ∈ x :: suf := by
        rw [← flowsOf_fst weather (x :: suf)]
        exact List.mem_map_of_mem hsf
      unfold flowOver
      rw [List.filter_cons_of_neg (by simpa using h.not_child mem)]
    rw [skip]
    rcases List.mem_cons.mp hsf with rfl | hsf
    · rfl
    · exact ih tail sf hsf

/-- The flows of a tree, one for each member in its order (03 R55). -/
theorem flowIn_flowsOf {weather : Nat} {tree : List Segment} (h : ParentsFirst tree) {s : Segment} (hs : s ∈ tree) :
    flowIn (flowsOf weather tree) s.num = min Config.maxFlow (demandOf weather s +
      ((tree.filter fun c => c.parent? == some (.seg s.num)).map fun c => flowIn (flowsOf weather tree) c.num).sum) := by
  have nodup : ((flowsOf weather tree).map fun sf => sf.1.num).Nodup := by rw [flowsOf_nums]; exact h.nodup
  have children : ((flowsOf weather tree).filter fun c => c.1.parent? == some (.seg s.num)).map (·.2) =
      (tree.filter fun c => c.parent? == some (.seg s.num)).map fun c => flowIn (flowsOf weather tree) c.num := by
    have paired : (tree.filter fun c => c.parent? == some (.seg s.num)) =
        ((flowsOf weather tree).filter fun c => c.1.parent? == some (.seg s.num)).map (·.1) := by
      have filtered := congrArg (List.filter fun c => c.parent? == some (.seg s.num)) (flowsOf_fst weather tree)
      rw [List.filter_map] at filtered
      exact filtered.symm
    rw [paired, List.map_map]
    refine List.map_congr_left fun sf hsf => ?_
    exact (flowIn_of_mem nodup (List.mem_filter.mp hsf).1).symm
  have formed := flowsOf_mem (pre := []) h _ (mem_flowsOf (weather := weather) h.nodup hs)
  rw [flowOver, children] at formed
  exact formed

/-! ### End pressures (03 R57) -/

/-- The pressure a segment takes over, from the end pressures formed before it. -/
def entryIn (p0 : Nat) (above : List (Nat × Nat)) (s : Segment) : Nat :=
  match s.parent? with
  | some (.seg m) => (above.lookup m).getD p0
  | some (.feed _) => p0
  | none => p0

theorem pressuresOf_concat (p0 : Nat) (flows : List (Segment × Nat)) (sf : Segment × Nat) :
    pressuresOf p0 (flows ++ [sf]) = pressuresOf p0 flows ++
      [(sf.1.num, entryIn p0 (pressuresOf p0 flows) sf.1 - dropOf sf.1.st.resistance sf.2)] := by
  unfold pressuresOf
  rw [List.foldl_append]
  rfl

/-- A list grows at its end, as the end pressures do. -/
theorem concat_induction {α : Type} {motive : List α → Prop} (nil : motive [])
    (concat : ∀ l a, motive l → motive (l ++ [a])) (l : List α) : motive l := by
  have reversed : ∀ l : List α, motive l.reverse := by
    intro l
    induction l with
    | nil => exact nil
    | cons a l ih =>
      rw [List.reverse_cons]
      exact concat _ a ih
  rw [← l.reverse_reverse]
  exact reversed l.reverse

theorem pressuresOf_nums (p0 : Nat) (flows : List (Segment × Nat)) :
    (pressuresOf p0 flows).map (·.1) = flows.map fun sf => sf.1.num := by
  induction flows using concat_induction with
  | nil => rfl
  | concat flows sf ih => rw [pressuresOf_concat, List.map_append, List.map_append, ih]; rfl

theorem lookup_isSome_iff_key {α : Type} {l : List (Nat × α)} {n : Nat} :
    (l.lookup n).isSome = true ↔ n ∈ l.map (·.1) := by
  rw [lookup_isSome_iff, List.mem_map]
  exact ⟨fun ⟨a, h⟩ => ⟨(n, a), h, rfl⟩, fun ⟨x, h, e⟩ => ⟨x.2, e ▸ h⟩⟩

/-- What an end pressure is formed from: the feed's starting pressure, or the parent's end pressure. -/
def EntryOf (p0 : Nat) (presses : List (Nat × Nat)) (s : Segment) (entry : Nat) : Prop :=
  match s.parent? with
  | some (.seg m) => presses.lookup m = some entry
  | some (.feed _) => entry = p0
  | none => entry = p0

/-- Every member has the end pressure of its parent less its own drop (03 R57). -/
theorem pressuresOf_mem {p0 : Nat} {flows : List (Segment × Nat)} (h : ParentsFirst (flows.map (·.1))) :
    ∀ sf ∈ flows, ∃ entry, EntryOf p0 (pressuresOf p0 flows) sf.1 entry ∧
      (pressuresOf p0 flows).lookup sf.1.num = some (entry - dropOf sf.1.st.resistance sf.2) := by
  induction flows using concat_induction with
  | nil => exact fun _ h => absurd h List.not_mem_nil
  | concat flows new ih =>
    have kept : ∀ n x, (pressuresOf p0 flows).lookup n = some x →
        (pressuresOf p0 (flows ++ [new])).lookup n = some x := fun n x e => by
      rw [pressuresOf_concat, List.lookup_append, e]
      rfl
    rw [List.map_append] at h
    intro sf hsf
    rcases List.mem_append.mp hsf with hsf | hsf
    · obtain ⟨entry, he, hl⟩ := ih h.front_part sf hsf
      refine ⟨entry, ?_, kept _ _ hl⟩
      unfold EntryOf at he ⊢
      split at he
      · exact kept _ _ he
      · exact he
      · exact he
    · obtain rfl := List.mem_singleton.mp hsf
      refine ⟨entryIn p0 (pressuresOf p0 flows) sf.1, ?_, ?_⟩
      · unfold EntryOf entryIn
        split
        next m hm =>
          have front := h.before (flows.map (·.1)) sf.1 [] rfl m hm
          rw [List.map_map] at front
          obtain ⟨x, hx⟩ := Option.isSome_iff_exists.mp
            (lookup_isSome_iff_key.mpr ((pressuresOf_nums p0 flows).symm ▸ front))
          dsimp only
          rw [hx]
          exact kept m x hx
        · rfl
        · rfl
      · have new : (pressuresOf p0 flows).lookup sf.1.num = none := by
          rw [← Option.not_isSome_iff_eq_none, lookup_isSome_iff_key, pressuresOf_nums]
          intro hm
          have nodup := h.nodup
          rw [List.map_append, List.nodup_append] at nodup
          obtain ⟨_, _, apart⟩ := nodup
          exact apart sf.1.num (by rwa [List.map_map]) sf.1.num (by simp) rfl
        rw [pressuresOf_concat, List.lookup_append, new, lookup_pair, if_pos rfl]
        rfl

/-! ### One recomputation (03 R49 to R51) -/

/-- The end pressures of a recomputation: none without a starting pressure. -/
def startedFrom (p0 : Option Nat) (flows : List (Segment × Nat)) : List (Nat × Nat) :=
  match p0 with
  | some p => pressuresOf p flows
  | none => []

/-- A member of feed `f`'s tree after a recomputation from `p0`. -/
def Grid.recomputed (g : Grid) (f : Nat) (p0 : Option Nat) (sampled : Bool) (regained : List Nat) (s : Segment) :
    Segment :=
  (s.estimated g.engine.weather (flowIn (flowsOf g.engine.weather (g.tree f)) s.num)
    ((startedFrom p0 (flowsOf g.engine.weather (g.tree f))).lookup s.num)).stableUpdate g.engine.consts.stable g.net
      (sampled && !regained.contains s.num)

theorem Grid.recomputed_est (g : Grid) (f : Nat) (p0 : Option Nat) (sampled : Bool) (regained : List Nat)
    (s : Segment) :
    (g.recomputed f p0 sampled regained s).est = (s.estimated g.engine.weather
      (flowIn (flowsOf g.engine.weather (g.tree f)) s.num)
      ((startedFrom p0 (flowsOf g.engine.weather (g.tree f))).lookup s.num)).est :=
  (Segment.stableUpdate_off _ _ _ _).1

/-- A recomputed member keeps its number, its static part and its supply state, and serves as many customers. -/
theorem Grid.recomputed_keeps (g : Grid) (f : Nat) (p0 : Option Nat) (sampled : Bool) (regained : List Nat)
    (s : Segment) :
    (g.recomputed f p0 sampled regained s).num = s.num ∧ (g.recomputed f p0 sampled regained s).st = s.st ∧
      (g.recomputed f p0 sampled regained s).supply = s.supply ∧
      (g.recomputed f p0 sampled regained s).onSupply = s.onSupply :=
  Segment.stableUpdate_keeps _ _ _ _

theorem Grid.recomputed_parent? (g : Grid) (f : Nat) (p0 : Option Nat) (sampled : Bool) (regained : List Nat)
    (s : Segment) : (g.recomputed f p0 sampled regained s).parent? = s.parent? := by
  obtain ⟨_, _, supply, _⟩ := g.recomputed_keeps f p0 sampled regained s
  unfold Segment.parent?
  rw [supply]

/-- A recomputation works on the members of the tree and leaves every other segment. -/
theorem Grid.recompute_segs {g : Grid} (hd : (g.segs.map fun r => r.num).Nodup) (f : Nat) (p0 : Option Nat)
    (sampled : Bool) (regained : List Nat) :
    (g.recompute f p0 sampled regained).segs = g.segs.map fun s =>
      if s.supply.feed? = some f then g.recomputed f p0 sampled regained s else s := by
  refine List.map_congr_left fun s hs => ?_
  by_cases hf : s.supply.feed? = some f
  · have nodup := Grid.tree_nodup hd f
    have member := mem_flowsOf (weather := g.engine.weather) nodup (Grid.mem_tree.mpr ⟨hs, hf⟩)
    rw [if_pos hf, find_num_of_mem (fun sf : Segment × Nat => sf.1.num) (by rwa [flowsOf_nums]) member rfl]
    rfl
  · have absent : (flowsOf g.engine.weather (g.tree f)).find? (fun sf => sf.1.num == s.num) = none := by
      refine List.find?_eq_none.mpr fun sf hsf e => hf ?_
      have hm : sf.1 ∈ g.tree f := by
        rw [← flowsOf_fst g.engine.weather (g.tree f)]
        exact List.mem_map_of_mem hsf
      obtain ⟨mem, feed⟩ := Grid.mem_tree.mp hm
      rwa [seg_eq_of_num hd mem hs (by simpa using e)] at feed
    rw [if_neg hf, absent]

theorem Grid.recompute_seg? {g : Grid} (hd : (g.segs.map fun r => r.num).Nodup) (f : Nat) (p0 : Option Nat)
    (sampled : Bool) (regained : List Nat) {r : Segment} (hr : r ∈ g.segs) :
    (g.recompute f p0 sampled regained).seg? r.num =
      some (if r.supply.feed? = some f then g.recomputed f p0 sampled regained r else r) := by
  have nums : (g.recompute f p0 sampled regained).segs.map (fun r => r.num) = g.segs.map fun r => r.num :=
    (Grid.recompute_sameNetwork f p0 sampled regained g).segNums
  refine find_num_of_mem (fun r : Segment => r.num) (nums.symm ▸ hd) ?_ ?_
  · rw [Grid.recompute_segs hd]
    exact List.mem_map_of_mem hr
  · split
    · exact (g.recomputed_keeps f p0 sampled regained r).1
    · rfl

/-! ### What a recomputation leaves in a tree (03 R54 to R57) -/

/-- The children of a member of a tree are members, and a recomputation gives them the flows its own is formed from. -/
theorem Grid.recompute_children {g : Grid} (ns : g.NetworkSound) (inService : g.engine.state.inService = true) {f : Nat}
    {s : Segment} (hs : s ∈ g.segs) (hf : s.supply.feed? = some f) (p0 : Option Nat) (sampled : Bool)
    (regained : List Nat) :
    (((g.recompute f p0 sampled regained).segs.filter fun c => c.parent? == some (.seg s.num)).map
        fun c => c.est.flow).sum =
      (((g.tree f).filter fun c => c.parent? == some (.seg s.num)).map
        fun c => flowIn (flowsOf g.engine.weather (g.tree f)) c.num).sum := by
  have hd := nodup_of_ascending ns.segs
  have parent (c : Segment) : (if c.supply.feed? = some f then g.recomputed f p0 sampled regained c else c).parent? =
      c.parent? := by
    split
    · exact g.recomputed_parent? f p0 sampled regained c
    · rfl
  have member {c : Segment} (hc : c ∈ g.segs) (hp : c.parent? = some (.seg s.num)) : c.supply.feed? = some f := by
    obtain ⟨q, hq, num, feed, _⟩ := ns.parent inService hc hp
    rw [← feed, seg_eq_of_num hd hq hs num, hf]
  have members : ((g.tree f).filter fun c => c.parent? == some (.seg s.num)).Perm
      (g.segs.filter fun c => c.parent? == some (.seg s.num)) := by
    refine ((g.tree_perm f).filter _).trans (.of_eq ?_)
    rw [List.filter_filter]
    refine List.filter_congr fun c hc => ?_
    rw [Bool.and_eq_left_iff_imp]
    exact fun hp => beq_iff_eq.mpr (member hc (beq_iff_eq.mp hp))
  rw [(members.map _).sum_nat, Grid.recompute_segs hd, List.filter_map, List.map_map]
  simp only [Function.comp_def, parent]
  refine congrArg List.sum (List.map_congr_left fun c hc => ?_)
  obtain ⟨hc, hp⟩ := List.mem_filter.mp hc
  rw [if_pos (member hc (beq_iff_eq.mp hp)), Grid.recomputed_est]
  rfl

/-- What an end pressure was formed from is what the recomputed parent shows, or the starting pressure (03 R57). -/
theorem Grid.recompute_entry {g : Grid} (ns : g.NetworkSound) (inService : g.engine.state.inService = true) {f : Nat}
    {s : Segment} (hs : s ∈ g.segs) (hf : s.supply.feed? = some f) {l : SupplyLink} (hl : s.supply = .fed l) (p : Nat)
    (sampled : Bool) (regained : List Nat) {entry : Nat}
    (he : EntryOf p (pressuresOf p (flowsOf g.engine.weather (g.tree f))) s entry) :
    match l.parent with
    | .feed _ => entry = p
    | .seg m => (((g.recompute f (some p) sampled regained).seg? m).bind fun q => q.est.level.map fun x => x.press) =
        some entry := by
  have parent : s.parent? = some l.parent := Segment.parent?_eq_some.mpr ⟨l, hl, rfl⟩
  unfold EntryOf at he
  rw [parent] at he
  cases hp : l.parent with
  | feed n => rw [hp] at he; exact he
  | seg m =>
    rw [hp] at he parent
    obtain ⟨q, hq, rfl, feed, _⟩ := ns.parent inService hs parent
    dsimp only at he ⊢
    rw [Grid.recompute_seg? (nodup_of_ascending ns.segs) _ _ _ _ hq, if_pos (feed.trans hf), Option.bind_some,
      Grid.recomputed_est]
    simp only [Segment.estimated, startedFrom, he, Option.map_some, levelFor]

/-- A recomputation leaves every member of the tree estimated from its starting pressure. -/
theorem Grid.recompute_estimated {g : Grid} (ns : g.NetworkSound) (inService : g.engine.state.inService = true) (f : Nat)
    (p0 : Option Nat) (sampled : Bool) (regained : List Nat) :
    (g.recompute f p0 sampled regained).Estimated f p0 := by
  have hd := nodup_of_ascending ns.segs
  have ordered := ns.parentsFirst inService f
  intro r hr l hl hf
  rw [Grid.recompute_segs hd] at hr
  obtain ⟨s, hs, rfl⟩ := List.mem_map.mp hr
  have feed : s.supply.feed? = some f := by
    by_cases h : s.supply.feed? = some f
    · exact h
    · rw [if_neg h] at hl
      exact Supply.feed?_eq_some.mpr ⟨l, hl, hf⟩
  have member : s ∈ g.tree f := Grid.mem_tree.mpr ⟨hs, feed⟩
  rw [if_pos feed] at hl ⊢
  obtain ⟨num, st, supply, onSupply⟩ := g.recomputed_keeps f p0 sampled regained s
  rw [num, st, onSupply, Grid.recomputed_est, Grid.recompute_children ns inService hs feed]
  refine ⟨rfl, flowIn_flowsOf ordered member, rfl, ?_⟩
  cases p0 with
  | none => rfl
  | some p =>
    obtain ⟨entry, he, press⟩ := pressuresOf_mem (p0 := p) (by rwa [flowsOf_fst]) _
      (mem_flowsOf (weather := g.engine.weather) ordered.nodup member)
    exact ⟨_, entry, congrArg (Option.map (levelFor s)) press, rfl, rfl,
      Grid.recompute_entry ns inService hs feed (supply.symm.trans hl) p sampled regained he⟩

/-- The tree input of a feed has no part in the estimates. -/
theorem Grid.estimated_onFeed {g : Grid} {f n : Nat} {p0 : Option Nat} (u : Feed → Feed) (h : g.Estimated f p0) :
    (g.onFeed n u).Estimated f p0 := h

/-! ### What a reached tree is recomputed from (03 R49 to R51) -/

/-- A reached tree with an input is recomputed from it, and the input becomes the tree input (03 R49). -/
theorem Grid.recomputeFor_input {g : Grid} {f : Nat} {fd : Feed} (causes : List TreeCause) (regained : List Nat)
    (ns : g.NetworkSound) (inService : g.engine.state.inService = true) (hfd : g.feed? f = some fd) {i : Input}
    (hi : fd.input = some i) (hp : fd.presence = .present)
    (reached : (∃ r ∈ g.segs, r.supply.feed? = some f) ∨ ∃ c ∈ causes, c ≠ .restructured) :
    (g.recomputeFor f causes regained).Estimated f (some i.value) ∧ (g.recomputeFor f causes regained).feeds =
      g.feeds.map fun r => if r.num = f then { r with treeInput := some i.value } else r := by
  have due : (!(g.tree f).isEmpty || causes.any (· != .restructured)) = true := by
    rcases reached with ⟨r, hr, hf⟩ | ⟨c, hc, hn⟩
    · have := List.ne_nil_of_mem (Grid.mem_tree.mpr ⟨hr, hf⟩)
      simp [this]
    · rw [Bool.or_eq_true]
      exact .inr (List.any_eq_true.mpr ⟨c, hc, by simpa using hn⟩)
  rcases g.recomputeFor_cases f causes regained with ⟨fd', i', hfd', hi', _, _, e⟩ | ⟨fd', hfd', hi', _, _⟩ | ⟨_, held⟩
  · cases hfd.symm.trans hfd'
    cases hi.symm.trans hi'
    rw [e]
    exact ⟨Grid.estimated_onFeed _ (Grid.recompute_estimated ns inService f _ _ _), rfl⟩
  · cases hfd.symm.trans hfd'
    cases hi.symm.trans hi'
  · rw [(held fd hfd).2 (by rw [hi]; rfl) hp] at due
    cases due

/-- Without an input a STRUCTURE cause recomputes the tree from the tree input (03 R51). -/
theorem Grid.recomputeFor_restructured {g : Grid} {f : Nat} {fd : Feed} {causes : List TreeCause} (regained : List Nat)
    (ns : g.NetworkSound) (inService : g.engine.state.inService = true) (hfd : g.feed? f = some fd)
    (hi : fd.input = none) (hc : .restructured ∈ causes) :
    (g.recomputeFor f causes regained).Estimated f fd.treeInput ∧ (g.recomputeFor f causes regained).feeds = g.feeds := by
  have e : g.recomputeFor f causes regained = g.recompute f fd.treeInput false regained := by
    unfold Grid.recomputeFor
    simp only [hfd, hi, List.contains_iff_mem, hc, if_true]
  rw [e]
  exact ⟨Grid.recompute_estimated ns inService f _ _ _, rfl⟩

theorem Grid.recomputeFor_held {g : Grid} {f : Nat} {fd : Feed} {causes : List TreeCause} (regained : List Nat)
    (hfd : g.feed? f = some fd) (hi : fd.input = none) (hc : .restructured ∉ causes) :
    g.recomputeFor f causes regained = g := by
  unfold Grid.recomputeFor
  simp only [hfd, hi, List.contains_iff_mem, hc, if_false]

end Sys2Proof.Machine
end

section
/-! PROOF. The estimator's arithmetic: demand, drop and band (O52, O53, O54). -/
namespace Sys2Proof.Machine

/-! ### Demand (03 R54) -/

theorem Segment.onSupply_le (s : Segment) : s.onSupply ≤ s.st.customers := by
  unfold Segment.onSupply
  omega

theorem demandOf_zero (s : Segment) : demandOf 0 s = 0 := by simp [demandOf]

/-- At the factor 1,000 the division takes the factor out again. -/
theorem demandOf_thousand (s : Segment) : demandOf 1000 s = s.onSupply * s.st.unitLoad :=
  Nat.mul_div_cancel _ (by decide)

/-- The demand of the largest segment with the largest unit load at the largest factor. -/
theorem demandOf_le {weather : Nat} {s : Segment} (hc : s.st.customers ≤ 20000) (hu : s.st.unitLoad ≤ 4000)
    (hw : weather ≤ 2000) : demandOf weather s ≤ 160000000 := by
  have product : s.onSupply * s.st.unitLoad * weather ≤ 20000 * 4000 * 2000 :=
    Nat.mul_le_mul (Nat.mul_le_mul (Nat.le_trans s.onSupply_le hc) hu) hw
  exact Nat.div_le_of_le_mul (Nat.le_trans product (by decide))

/-- Settles O52: the quotient brackets the exact product, and each factor is bounded. -/
theorem demandProduct : Obligations.DemandProduct := by
  intro weather s
  refine ⟨Nat.div_mul_le_self _ _, ?_, demandOf_zero s, demandOf_thousand s, demandOf_le⟩
  rw [← Nat.succ_mul]
  exact Nat.lt_mul_of_div_lt (Nat.lt_succ_self _) (by decide)

/-! ### Drop (03 R56) -/

/-- Below its limit the drop is the quotient, which the limit leaves alone. -/
theorem dropOf_eq_iff_of_lt {r f q : Nat} (hq : q < 999999) :
    dropOf r f = q ↔ q * 1000000000000 ≤ f * f * r + 500000000000 ∧
      f * f * r + 500000000000 < (q + 1) * 1000000000000 := by
  have quotient : dropOf r f = q ↔ (f * f * r + 500000000000) / 1000000000000 = q := by
    unfold dropOf Config.maxPressure
    omega
  rw [quotient, Nat.div_eq_iff (by decide)]
  omega

/-- The drop is at its limit from half a pascal below it. -/
theorem dropOf_eq_limit_iff {r f : Nat} : dropOf r f = 999999 ↔ 999998500000000000 < 1 + f * f * r := by
  unfold dropOf Config.maxPressure
  omega

/-- Settles O53: below the limit by the bounds of the quotient, at the limit by the least sum that reaches it. -/
theorem dropRounds : Obligations.DropRounds := by
  intro r f
  refine ⟨fun q hq => ?_, Nat.min_le_left _ _, by simp [dropOf], by simp [dropOf], by decide, by decide, by decide,
    by decide, by decide⟩
  split
  next limit => rw [limit]; exact dropOf_eq_limit_iff
  next below => exact dropOf_eq_iff_of_lt (Nat.lt_of_le_of_ne hq below)

/-! ### Band (03 Table 3-4) -/

theorem bandFor_negative (b : Option Band) {m : Int} (w h : Nat) (hm : m < 0) : bandFor b m w h = .short := if_pos hm

/-- A segment without a band is decided as a NORMAL one. -/
theorem bandFor_none_or_normal {b : Option Band} {m : Int} (w h : Nat) (hb : b = none ∨ b = some .normal) (hm : 0 ≤ m) :
    bandFor b m w h = if m < w then .low else .normal := by
  rcases hb with rfl | rfl
  · exact if_neg (Int.not_lt.mpr hm)
  · exact if_neg (Int.not_lt.mpr hm)

theorem bandFor_low {m : Int} (w h : Nat) (hm : 0 ≤ m) :
    bandFor (some .low) m w h = if m < w + h then .low else .normal := if_neg (Int.not_lt.mpr hm)

theorem bandFor_short {m : Int} (w h : Nat) (hm : 0 ≤ m) :
    bandFor (some .short) m w h = if m < h then .short else if m < w + h then .low else .normal :=
  if_neg (Int.not_lt.mpr hm)

theorem Segment.estimated_band_none (weather flow : Nat) (s : Segment) :
    (s.estimated weather flow none).band = none := rfl

theorem Segment.estimated_band_some (weather flow p : Nat) (s : Segment) :
    (s.estimated weather flow (some p)).band =
      some (bandFor s.band ((p : Int) - s.st.minimum) s.st.warn s.st.hysteresis) := rfl

/-- Settles O54: the column of negative margins, then the rows of the others. -/
theorem bandTable : Obligations.BandTable := fun _ w h weather flow s =>
  ⟨fun b => bandFor_negative b w h, fun _ => bandFor_none_or_normal w h, bandFor_low w h, bandFor_short w h,
    s.estimated_band_none weather flow, fun p => s.estimated_band_some weather flow p⟩

end Sys2Proof.Machine
end

section
/-! PROOF. Supply, recomputation, stable count and cause of an outage (O40). -/
namespace Sys2Proof.Machine

/-! ### Accounts and causes (04 Table 4-6, 06 R108) -/

/-- The cause of an outage is the account of the first LOST change of a valve (06 R108). -/
theorem Trigger.cause_of_lost {a : List PassChange} (b : List PassChange) {c : PassChange} (fs : List (Nat × Presence))
    (ha : ∀ x ∈ a, x.gained = true) (hc : c.gained = false) : (Trigger.changes (a ++ c :: b) fs).cause = c.cause := by
  have found : (a ++ c :: b).find? (fun x => !x.gained) = some c :=
    List.find?_eq_some_iff_append.mpr ⟨by simp [hc], a, b, rfl, fun x hx => by simp [ha x hx]⟩
  simp only [Trigger.cause, found]

/-- Without a LOST change of a valve the cause is the first FAILED change of a feed (06 R108). -/
theorem Trigger.cause_of_failed {vs : List PassChange} {a : List (Nat × Presence)} (b : List (Nat × Presence)) (f : Nat)
    (hv : ∀ x ∈ vs, x.gained = true) (ha : ∀ x ∈ a, x.2 ≠ .failed) :
    (Trigger.changes vs (a ++ (f, .failed) :: b)).cause = .feedFailed f := by
  have noneLost : vs.find? (fun x => !x.gained) = none := List.find?_eq_none.mpr fun x hx => by simp [hv x hx]
  have found : (a ++ (f, Presence.failed) :: b).find? (fun x => x.2 == .failed) = some (f, .failed) :=
    List.find?_eq_some_iff_append.mpr ⟨by simp, a, b, rfl, fun x hx => by simpa using ha x hx⟩
  simp only [Trigger.cause, noneLost, found]

/-- Settles O40: the moves of a resolution, the stable count by stage and band, the estimate by flows and pressures along
the tree, and the cause by the first change that takes supply away. -/
theorem supplyMovesOutage : Obligations.SupplyMovesOutage := by
  refine ⟨fun net k c sup m s => ?_, fun k net sampled s => ?_, fun g f p0 sampled regained r hd hr => ?_,
    fun g f fd causes regained ns inService hfd => ?_, fun v w => ?_, rfl, rfl,
    fun a b c fs ha hc => Trigger.cause_of_lost b fs ha hc, fun vs a b f hv ha => Trigger.cause_of_failed b f hv ha⟩
  · obtain ⟨num, st, supply, meshed, unrelit, summary⟩ := s.resolved_keeps net k c sup m
    refine ⟨num, st, supply, meshed, unrelit, summary, fun lost hsup => ?_, fun unfed fed => ?_, fun known fed => ?_,
      fun unfed hsup => ?_⟩
    · subst hsup
      exact ⟨Segment.resolved_lost_est net k c m lost, Segment.resolved_lost_opens net k c m lost,
        fun p => Segment.resolved_lost_again net k c m lost⟩
    · cases sup with
      | unfed => cases fed
      | unknown => cases fed
      | fed l =>
        exact ⟨Segment.resolved_regained_est net k c l m unfed, Segment.resolved_regained_none net k c l m unfed,
          fun p => Segment.resolved_regained_off net k c l m unfed⟩
    · have notUnfed : s.supply ≠ .unfed := by
        intro e
        rw [e] at known
        rcases known with known | known <;> cases known
      rw [Segment.resolved_kept net k c m (.inr ⟨notUnfed, fed⟩)]
      exact ⟨rfl, rfl⟩
    · rw [Segment.resolved_kept net k c m (.inl ⟨unfed, hsup⟩)]
      exact ⟨rfl, rfl⟩
  · refine ⟨Segment.stableUpdate_none k net sampled, fun p hp => ⟨Segment.stableUpdate_idle k net hp,
      Segment.stableUpdate_short k net sampled hp, fun x target stage band short hs ht => ?_⟩⟩
    subst hs
    rw [Segment.stableUpdate_counts k net hp stage band short ht]
    refine ⟨fun below => if_neg (Nat.not_le.mpr below), fun reached off => ?_, fun reached nobody => ?_⟩
    · exact (if_pos reached).trans (Segment.enterRelighting_pos net s off)
    · exact (if_pos reached).trans (Segment.enterRelighting_zero net s nobody)
  · rw [Grid.recompute_seg? hd f p0 sampled regained hr]
    refine ⟨fun member => ?_, fun other => by rw [if_neg other]⟩
    rw [if_pos member]
    exact ⟨_, _, rfl⟩
  · exact ⟨fun i => Grid.recomputeFor_input causes regained ns inService hfd,
      Grid.recomputeFor_restructured regained ns inService hfd, Grid.recomputeFor_held regained hfd⟩
  · unfold accountOf
    cases v.state with
    | opened => rfl
    | closing => rfl
    | closed => rfl
    | opening => cases w.state <;> rfl
    | stuck => cases w.state <;> rfl

end Sys2Proof.Machine
end

section
/-! SUPPORT. Posting puts a change into the change set of its record and takes none out of any; the records at two moments
of an event, and the screens, do nothing to the notice list but post. -/
namespace Sys2Proof.Machine

/-! ### What posting does to a change set (10 R164) -/

/-- The change set of a record, read from the first entry a list has for it. -/
theorem changeSet_eq (r : Ref) (l : Link) :
    changeSet r l = (((l.urgent ++ l.routine).find? (·.ref == r)).map fun e => e.changes).getD 0 := by
  unfold changeSet
  cases (l.urgent ++ l.routine).find? (·.ref == r) <;> rfl

theorem noticed_eq (r : Ref) (l : List Notice) : noticed r l = (l.find? (·.ref == r)).isSome := by
  rw [Bool.eq_iff_iff, List.find?_isSome]
  simp [noticed]

/-- The kinds join the entry a list has for the record. -/
theorem find_addKinds_self (r : Ref) (k : BitVec 16) (l : List Notice) :
    (addKinds r k l).find? (·.ref == r) = (l.find? (·.ref == r)).map fun e => { e with changes := e.changes ||| k } := by
  induction l with
  | nil => rfl
  | cons e l ih =>
    unfold addKinds at ih ⊢
    by_cases h : e.ref = r
    · simp [h]
    · simp [h, ih]

theorem find_addKinds_other {r q : Ref} (h : q ≠ r) (k : BitVec 16) (l : List Notice) :
    (addKinds r k l).find? (·.ref == q) = l.find? (·.ref == q) := by
  induction l with
  | nil => rfl
  | cons e l ih =>
    unfold addKinds at ih ⊢
    rw [List.map_cons]
    by_cases he : e.ref = r
    · rw [if_pos he, List.find?_cons_of_neg, List.find?_cons_of_neg, ih] <;> simp [he, Ne.symm h]
    · rw [if_neg he, List.find?_cons, List.find?_cons, ih]

theorem find_removeEntry_other {r q : Ref} (h : q ≠ r) (l : List Notice) :
    (removeEntry r l).find? (·.ref == q) = l.find? (·.ref == q) := by
  unfold removeEntry
  rw [List.find?_filter]
  refine congrArg (List.find? · l) (funext fun e => ?_)
  by_cases he : e.ref = q
  · simp [he, h]
  · simp [he]

/-- Posting adds its kinds to the change set of its record. -/
theorem changeSet_post_self (r : Ref) (k : BitVec 16) (c : Urgency) (l : Link) :
    changeSet r (l.post r k c) = changeSet r l ||| k := by
  have hu := noticed_eq r l.urgent
  have hr := noticed_eq r l.routine
  unfold Link.post
  cases u : l.urgent.find? (·.ref == r) with
  | some e =>
    rw [u] at hu
    simp [hu, changeSet_eq, find_addKinds_self, u]
  | none =>
    rw [u] at hu
    cases c with
    | urgent => simp [hu, changeSet_eq, u]
    | routine =>
      cases t : l.routine.find? (·.ref == r) with
      | some e =>
        rw [t] at hr
        simp [hu, hr, changeSet_eq, find_addKinds_self, u, t]
      | none =>
        rw [t] at hr
        simp [hu, hr, changeSet_eq, u, t]

/-- Posting leaves the change set of every other record. -/
theorem changeSet_post_other {r q : Ref} (h : q ≠ r) (k : BitVec 16) (c : Urgency) (l : Link) :
    changeSet q (l.post r k c) = changeSet q l := by
  have hn : (r == q) = false := by simpa using Ne.symm h
  unfold Link.post
  split
  · simp [changeSet_eq, find_addKinds_other h]
  · cases c with
    | urgent => simp [changeSet_eq, find_removeEntry_other h, hn]
    | routine =>
      dsimp only
      split
      · simp [changeSet_eq, find_addKinds_other h]
      · simp [changeSet_eq, hn]

/-! ### Reports -/

/-- An act that posts. -/
def Act.posts : Act → Bool
  | .post _ _ _ => true
  | .drop _ => false
  | .unmark _ _ => false

/-- A change that is reported stays reported whatever is posted. -/
theorem State.Reports.act {s : State} {k : Change} {n : Nat} (h : s.Reports k n) {a : Act} (ha : a.posts = true) :
    (s.act a).Reports k n := by
  cases a with
  | post j m c =>
    show changeSet ⟨k.record, n⟩ (s.link.post ⟨j.record, m⟩ j.mask c) &&& k.mask ≠ 0
    by_cases e : (⟨k.record, n⟩ : Ref) = ⟨j.record, m⟩
    · rw [e, changeSet_post_self, ← e, BitVec.and_or_distrib_right]
      exact or_ne_zero_of_left h
    · rw [changeSet_post_other e]
      exact h
  | drop r => cases ha
  | unmark r kinds => cases ha

/-- A change is reported once it is posted. -/
theorem State.reports_post (k : Change) (n : Nat) (c : Urgency) (s : State) : (s.act (.post k n c)).Reports k n := by
  show changeSet ⟨k.record, n⟩ (s.link.post ⟨k.record, n⟩ k.mask c) &&& k.mask ≠ 0
  rw [changeSet_post_self, BitVec.and_or_distrib_right, BitVec.and_self]
  exact or_ne_zero_of_right k.mask_ne_zero

theorem State.Reports.foldl_act {k : Change} {n : Nat} {as : List Act} (ha : ∀ a ∈ as, a.posts = true) {s : State}
    (h : s.Reports k n) : (as.foldl State.act s).Reports k n := by
  induction as generalizing s with
  | nil => exact h
  | cons a as ih => exact ih (fun b hb => ha b (.tail _ hb)) (h.act (ha a (.head _)))

/-- An event that does nothing to the notice list but post reports every change it posts. -/
theorem State.conclude_reports {k : Change} {n : Nat} {c : Urgency} {as : List Act} (ha : ∀ a ∈ as, a.posts = true)
    (hm : .post k n c ∈ as) (g : Grid) (s : State) : (s.conclude g as).Reports k n := by
  obtain ⟨before, after, rfl⟩ := List.append_of_mem hm
  unfold State.conclude
  rw [List.foldl_append, List.foldl_cons]
  exact (State.reports_post k n c _).foldl_act fun a h => ha a (List.mem_append_right _ (.tail _ h))

/-! ### What the records post -/

@[simp] theorem postIf_posts (cond : Bool) (k : Change) (n : Nat) (c : Urgency) :
    (postIf cond k n c).all Act.posts = true := by
  unfold postIf
  split <;> rfl

@[simp] theorem Point.acts_post (g : Grid) (old new : Point) : (old.acts g new).all Act.posts = true := by
  simp [Point.acts]
@[simp] theorem Feed.acts_post (old new : Feed) : (old.acts new).all Act.posts = true := by simp [Feed.acts]
@[simp] theorem Valve.acts_post (old new : Valve) : (old.acts new).all Act.posts = true := by simp [Valve.acts]
@[simp] theorem Isolation.acts_post (old new : Isolation) : (old.acts new).all Act.posts = true := by
  simp [Isolation.acts]
@[simp] theorem Isolation.newActs_post (new : Isolation) : new.newActs.all Act.posts = true := by
  simp [Isolation.newActs, Act.posts]
@[simp] theorem outageActs_post (n : Nat) (old new : Segment) : (outageActs n old new).all Act.posts = true := by
  unfold outageActs
  split
  · exact postIf_posts _ _ _ _
  · rfl
  · rfl
  · simp
@[simp] theorem Segment.acts_post (old new : Segment) : (old.acts new).all Act.posts = true := by simp [Segment.acts]
@[simp] theorem Call.acts_post (old new : Call) : (old.acts new).all Act.posts = true := by simp [Call.acts]
@[simp] theorem Call.newActs_post (new : Call) : new.newActs.all Act.posts = true := rfl
@[simp] theorem Crew.acts_post (old new : Crew) : (old.acts new).all Act.posts = true := by simp [Crew.acts]
@[simp] theorem Engine.acts_post (old new : Engine) : (old.acts new).all Act.posts = true := by simp [Engine.acts]
@[simp] theorem Screen.movementActs_post (segs : List Segment) (sc : Screen) :
    (sc.movementActs segs).all Act.posts = true := by
  unfold Screen.movementActs
  rw [List.all_append]
  split <;> split <;> rfl

/-- When each record of a table does nothing but post, so does the table. -/
theorem flatMap_posts {α : Type} {f : α → List Act} (h : ∀ a, (f a).all Act.posts = true) (l : List α) :
    (l.flatMap f).all Act.posts = true := by
  rw [List.all_flatMap]
  exact List.all_eq_true.mpr fun a _ => h a

/-- The acts of a record that may be new in the event: by its difference, or as its entry gives. -/
theorem getD_posts {α : Type} {o : Option α} {f : α → List Act} {d : List Act} (h : ∀ a, (f a).all Act.posts = true)
    (hd : d.all Act.posts = true) : ((o.map f).getD d).all Act.posts = true := by
  cases o with
  | none => exact hd
  | some a => exact h a

/-- The records at two moments of an event differ by posts alone. -/
@[simp] theorem diffActs_post (before after : Grid) : (diffActs before after).all Act.posts = true := by
  simp only [diffActs, List.all_append, Bool.and_eq_true]
  refine ⟨⟨⟨⟨⟨⟨⟨?_, ?_⟩, ?_⟩, ?_⟩, ?_⟩, ?_⟩, ?_⟩, Engine.acts_post _ _⟩
  · exact flatMap_posts (fun p => getD_posts (fun o => o.acts_post _ p) rfl) _
  · exact flatMap_posts (fun f => getD_posts (fun o => o.acts_post f) rfl) _
  · exact flatMap_posts (fun v => getD_posts (fun o => o.acts_post v) rfl) _
  · exact flatMap_posts (fun i => getD_posts (fun o => o.acts_post i) i.newActs_post) _
  · exact flatMap_posts (fun s => getD_posts (fun o => o.acts_post s) rfl) _
  · exact flatMap_posts (fun c => getD_posts (fun o => o.acts_post c) c.newActs_post) _
  · exact flatMap_posts (fun k => getD_posts (fun o => o.acts_post k) rfl) _

/-- What the difference of a segment posts stands among what the records post. -/
theorem mem_diffActs_of_seg {before after : Grid} {o r : Segment} (hr : r ∈ after.segs) (ho : before.seg? r.num = some o)
    {a : Act} (ha : a ∈ o.acts r) : a ∈ diffActs before after := by
  have own : a ∈ after.segs.flatMap fun s => ((before.seg? s.num).map fun o => o.acts s).getD [] :=
    List.mem_flatMap.mpr ⟨r, hr, by rw [ho]; exact ha⟩
  simp only [diffActs, List.mem_append]
  exact .inl (.inl (.inl (.inr own)))

/-- The end of an outage posts OUTAGE, routine (06 R118). -/
theorem Segment.acts_outage_ended {old new : Segment} {p : Outage} (ho : old.outage = some p) (hn : new.outage = none) :
    .post .segOutage new.num .routine ∈ old.acts new := by
  simp [Segment.acts, outageActs, ho, hn]

end Sys2Proof.Machine
end

section
/-! SUPPORT. The end of an event whose own handling leaves valves, feeds and engine as it found them, in service: it resolves,
adopts and verifies nothing, so that what follows is the derivation of counts, grades and vectors and the recomputation of
the trees reached. -/
namespace Sys2Proof.Machine

/-! ### Segments but for what is derived of them -/

/-- A segment without its call counts, its vector and its UNVERIFIED count, which every event derives afresh (log 12). -/
def Segment.stripped (s : Segment) : Segment := { s with escapes := 0, noSupply := 0, conds := 0, unverified := 0 }

theorem Work.settled_stripped (w : Work) : w.settled.grid.segs.map Segment.stripped = w.grid.segs.map Segment.stripped :=
  map_map_eq fun _ _ => rfl

theorem Grid.mem_tallied {g : Grid} {r : Segment} (h : r ∈ g.segs) :
    ∃ r' ∈ g.tallied.segs, r'.num = r.num ∧ r'.outage = r.outage := ⟨_, List.mem_map_of_mem h, rfl, rfl⟩

/-- The desk's pass and the monitor's part derive only what `Segment.stripped` leaves out. -/
theorem Work.wound_stripped (before : Grid) (w : Work) :
    (w.desk.monitored before).grid.segs.map Segment.stripped = w.grid.segs.map Segment.stripped := by
  have counted : w.desk.grid.segs = w.grid.recount.segs := (dispatch_tables _ _).1
  calc (w.desk.monitored before).grid.segs.map Segment.stripped
      = w.desk.grid.segs.map Segment.stripped := map_map_eq fun _ _ => rfl
    _ = w.grid.segs.map Segment.stripped := by rw [counted]; exact map_map_eq fun _ _ => rfl

/-- Tables of segments that agree in values which hold the number agree in the values at each number. -/
theorem Grid.seg?_congr {β : Type} {h g : Grid} {val : Segment → β} (num : β → Nat) (hn : ∀ r, num (val r) = r.num)
    (e : h.segs.map val = g.segs.map val) (n : Nat) : (h.seg? n).map val = (g.seg? n).map val := by
  have key : ∀ k : Grid, (k.seg? n).map val = (k.segs.map val).find? fun b => num b == n := fun k => by
    rw [List.find?_map]
    refine congrArg (Option.map val) (congrArg (List.find? · k.segs) (funext fun r => ?_))
    rw [Function.comp, hn]
  rw [key h, key g, e]

/-- The look-up of a segment after a change to segment `n` that keeps its number. -/
theorem Grid.seg?_onSeg {f : Segment → Segment} (hf : ∀ r, (f r).num = r.num) (g : Grid) (n m : Nat) :
    (g.onSeg n f).seg? m = (g.seg? m).map fun r => if r.num = n then f r else r := by
  unfold Grid.seg?
  rw [Grid.onSeg_segs, List.find?_map]
  refine congrArg (Option.map _) (congrArg (List.find? · g.segs) (funext fun r => ?_))
  simp only [Function.comp]
  split
  · rw [hf]
  · rfl

theorem Grid.seg?_onSeg_self {f : Segment → Segment} (hf : ∀ r, (f r).num = r.num) {g : Grid} {n : Nat} {r : Segment}
    (h : g.seg? n = some r) : (g.onSeg n f).seg? n = some (f r) := by
  rw [Grid.seg?_onSeg hf, h, Option.map_some, if_pos (Grid.seg?_num h)]

theorem Grid.seg?_onSeg_other {f : Segment → Segment} (hf : ∀ r, (f r).num = r.num) (g : Grid) {n m : Nat} (h : m ≠ n) :
    (g.onSeg n f).seg? m = g.seg? m := by
  rw [Grid.seg?_onSeg hf]
  cases e : g.seg? m with
  | none => rfl
  | some r => rw [Option.map_some, if_neg (Grid.seg?_num e ▸ h)]

/-! ### What a recomputation without a sample leaves -/

theorem Work.recomputeAll_acts (w : Work) : w.recomputeAll.acts = w.acts := by
  unfold Work.recomputeAll
  split <;> rfl

/-- Where no tree is reached none is recomputed. -/
theorem Work.recomputeAll_unreached {w : Work} (h : w.causes = []) : w.recomputeAll.grid = w.grid := by
  unfold Work.recomputeAll
  rw [h]
  split
  · exact foldl_kept (· = ·) (fun _ => rfl) (fun _ _ _ => Eq.trans) _ (fun _ _ => rfl) _ _
  · rfl

/-- A segment without its estimate and stable count, which a recomputation changes, and without what every event derives. -/
def Segment.restoring (s : Segment) : Segment :=
  { s.stripped with est := .blank, outage := s.outage.map fun p => { p with stable := 0, target := none } }

theorem restoring_of_stripped {l m : List Segment} (h : l.map Segment.stripped = m.map Segment.stripped) :
    l.map Segment.restoring = m.map Segment.restoring := map_congr_of_map h Segment.restoring fun _ => rfl

/-- Without a sample the stable count is all that a recomputation changes in an outage part (06 R112). -/
theorem Segment.stableUpdate_restoring (k : Nat) (net : Sec) (s : Segment) :
    (s.stableUpdate k net false).restoring = s.restoring := by
  cases h : s.outage with
  | none => rw [Segment.stableUpdate_none k net false h]
  | some p =>
    by_cases reset : p.stage ≠ .off ∧ s.band = some .short
    · rw [Segment.stableUpdate_short k net false h reset.1 reset.2]
      simp only [Segment.restoring, Segment.stripped, h, Option.map_some]
    · refine congrArg Segment.restoring (Segment.stableUpdate_idle k net h ?_)
      cases hp : p.stage with
      | off => exact .inl hp
      | repressurizing => exact .inr (.inr (.inl ⟨hp, fun hb => reset ⟨hp ▸ nofun, hb⟩, rfl⟩))
      | relighting => exact .inr (.inr (.inr ⟨hp, fun hb => reset ⟨hp ▸ nofun, hb⟩⟩))

theorem Grid.recompute_restoring (f : Nat) (p0 : Option Nat) (regained : List Nat) (g : Grid) :
    (g.recompute f p0 false regained).segs.map Segment.restoring = g.segs.map Segment.restoring := by
  refine map_map_eq fun s _ => ?_
  split
  · exact Segment.stableUpdate_restoring _ _ _
  · rfl

theorem Grid.recomputeFor_restoring (f : Nat) {causes : List TreeCause} (h : .sample ∉ causes) (regained : List Nat)
    (g : Grid) : (g.recomputeFor f causes regained).segs.map Segment.restoring = g.segs.map Segment.restoring := by
  have unsampled : causes.contains .sample = false := by simpa using h
  rcases g.recomputeFor_cases f causes regained with ⟨fd, i, _, _, _, _, e⟩ | ⟨fd, _, _, _, e⟩ | ⟨e, _⟩
  · rw [e, unsampled, Grid.onFeed_segs]
    exact Grid.recompute_restoring f _ regained g
  · rw [e]
    exact Grid.recompute_restoring f _ regained g
  · rw [e]

/-- Where no tree is reached by SAMPLE the recomputations leave every outage part but for its stable count. -/
theorem Work.recomputeAll_restoring {w : Work} (h : ∀ c ∈ w.causes, c.2 ≠ .sample) :
    w.recomputeAll.grid.segs.map Segment.restoring = w.grid.segs.map Segment.restoring := by
  unfold Work.recomputeAll
  split
  · refine foldl_kept (fun a b : Grid => a.segs.map Segment.restoring = b.segs.map Segment.restoring) (fun _ => rfl)
      (fun _ _ _ => Eq.trans) _ (fun g f => ?_) _ _
    dsimp only
    split
    · rfl
    · refine Grid.recomputeFor_restoring f (fun hm => ?_) _ g
      obtain ⟨c, hc, e⟩ := List.mem_map.mp hm
      exact h c (List.mem_filter.mp hc).1 e
  · rfl

/-- The desk's pass and the monitor's part do nothing to the notice list but post. -/
theorem Work.wound_acts (before : Grid) (w : Work) :
    ∃ more, more.all Act.posts = true ∧ (w.desk.monitored before).acts = w.acts ++ more := by
  refine ⟨_, ?_, List.append_assoc _ _ _⟩
  rw [List.all_append, diffActs_post, Bool.true_and]
  exact flatMap_posts (Screen.movementActs_post _) _

/-! ### An event without a change of the network -/

theorem passChanges_self {l : List Valve} (h : (l.map fun v => v.num).Nodup) : passChanges l l = [] :=
  List.filterMap_eq_nil_iff.mpr fun v hv => by
    rw [find_num_of_mem (fun r : Valve => r.num) h hv rfl]
    exact if_pos rfl

theorem presenceChanges_self {l : List Feed} (h : (l.map fun f => f.num).Nodup) : presenceChanges l l = [] :=
  List.filterMap_eq_nil_iff.mpr fun f hf => by
    rw [find_num_of_mem (fun r : Feed => r.num) h hf rfl]
    exact if_pos rfl

/-- The event's own handling has left valves, feeds and engine as `before` has them. -/
structure Work.Quiet (before : Grid) (w : Work) : Prop where
  valves : w.grid.valves = before.valves
  feeds : w.grid.feeds = before.feeds
  engine : w.grid.engine = before.engine

theorem Work.Quiet.settled {before : Grid} {w : Work} (q : w.Quiet before) : w.settled.Quiet before :=
  ⟨q.valves, q.feeds, q.engine⟩

theorem Work.Quiet.resolveChanges {before : Grid} {w : Work} (q : w.Quiet before) (ns : before.NetworkSound) :
    w.resolveChanges before = w := by
  unfold Work.resolveChanges
  rw [q.valves, q.feeds, passChanges_self (nodup_of_ascending ns.valves),
    presenceChanges_self (nodup_of_ascending ns.feeds)]
  exact if_neg fun h => absurd h.2 (by decide)

/-- As many orders stand as before the event, so that it does not end the last one (04 R69). -/
theorem Work.Quiet.quiesce {before : Grid} {w : Work} (q : w.Quiet before) : w.quiesce before = w := by
  refine Work.quiesce_of_orders ?_
  rw [show w.grid.ordered = before.ordered from congrArg (List.filter _) q.valves]
  exact Classical.em _

theorem Work.Quiet.verify {before : Grid} {w : Work} (q : w.Quiet before)
    (inService : before.engine.state.inService = true) : w.verify before = w :=
  Work.verify_of_ne (q.engine ▸ EngineState.ne_verifying_of_inService inService)


/-! ### The end of such an event -/

section
variable {before : Grid} {w : Work} (q : w.Quiet before) (ns : before.NetworkSound)
  (inService : before.engine.state.inService = true)
include q ns inService

/-- What follows such an event: the trees reached are recomputed, and nothing else. -/
theorem Work.Quiet.consequences : w.consequences before = w.settled.settled.settled.settled.recomputeAll := by
  unfold Work.consequences
  rw [q.settled.resolveChanges ns, q.settled.settled.quiesce, q.settled.settled.settled.verify inService]

/-- An event that reaches no tree leaves the segments as its own handling did. -/
theorem Work.Quiet.finished_stripped (unreached : w.causes = []) :
    (w.finished before).segs.map Segment.stripped = w.grid.segs.map Segment.stripped := by
  calc (w.finished before).segs.map Segment.stripped
      = (w.consequences before).grid.segs.map Segment.stripped := Work.wound_stripped before _
    _ = w.settled.settled.settled.settled.grid.segs.map Segment.stripped := by
        rw [q.consequences ns inService, Work.recomputeAll_unreached (w := w.settled.settled.settled.settled) unreached]
    _ = w.grid.segs.map Segment.stripped := by simp only [Work.settled_stripped]

/-- An event that reaches no tree by SAMPLE leaves each segment's outage part but for its stable count. -/
theorem Work.Quiet.finished_restoring (unsampled : ∀ c ∈ w.causes, c.2 ≠ .sample) :
    (w.finished before).segs.map Segment.restoring = w.grid.segs.map Segment.restoring := by
  calc (w.finished before).segs.map Segment.restoring
      = (w.consequences before).grid.segs.map Segment.restoring :=
        restoring_of_stripped (Work.wound_stripped before _)
    _ = w.settled.settled.settled.settled.grid.segs.map Segment.restoring := by
        rw [q.consequences ns inService, Work.recomputeAll_restoring (w := w.settled.settled.settled.settled) unsampled]
    _ = w.grid.segs.map Segment.restoring := restoring_of_stripped (by simp only [Work.settled_stripped])

/-- It does nothing to the notice list but post, and posts what its own handling changed in the records. -/
theorem Work.Quiet.posted (ha : w.acts.all Act.posts = true) :
    (w.posted before).all Act.posts = true ∧ ∀ a ∈ diffActs w.seen w.grid.tallied, a ∈ w.posted before := by
  have acts : (w.consequences before).acts = w.settled.settled.settled.settled.acts := by
    rw [q.consequences ns inService, Work.recomputeAll_acts]
  obtain ⟨more, hm, e⟩ := Work.wound_acts before (w.consequences before)
  have posted : w.posted before = (w.consequences before).acts ++ more := e
  rw [posted, acts]
  refine ⟨by simp [ha, hm], fun a h => ?_⟩
  simp only [Work.settled_acts, List.mem_append]
  exact .inl (.inl (.inl (.inl (.inr h))))

end

end Sys2Proof.Machine
end

section
/-! PROOF. RELIGHT and SETTLE move the counts of an outage and end it (O41). -/
namespace Sys2Proof.Machine

/-! ### Requests -/

/-- A request that is only told an outcome leaves the state told it. -/
theorem answerFrame_told {f : Frame} {d : Grid → Served} {s : State} {c : Code} {body : List Byte}
    (h : d s.grid = tell s.grid c body) : answerFrame f (atGrid d) s = s.told f c body := by
  rw [answerFrame_of_unchanged _ _ _ (by rw [h]; rfl) (by rw [h]; rfl), h]
  rfl

/-- A request that ends an event replies from the records that result (10 R163). -/
theorem answerFrame_replies {f : Frame} {d : Grid → Served} {s : State} {c : Code} {body : Grid → List Byte} {w : Work}
    (h : d s.grid = w.answered s.grid c body) :
    s.Replies (answerFrame f (atGrid d) s) (f.kind + 0x80) f.tag c (body (w.finished s.grid)) := by
  unfold State.Replies
  rw [answerFrame_transmit, h]
  rfl

theorem answerFrame_finished {f : Frame} {d : Grid → Served} {s : State} {c : Code} {body : Grid → List Byte} {w : Work}
    (h : d s.grid = w.answered s.grid c body) : (answerFrame f (atGrid d) s).grid = w.finished s.grid := by
  rw [answerFrame_grid, h, answered_grid]

/-- A request whose event only posts reports every change it posts. -/
theorem answerFrame_reports {f : Frame} {d : Grid → Served} {s : State} {c : Code} {body : Grid → List Byte} {w : Work}
    (h : d s.grid = w.answered s.grid c body) (hp : (w.posted s.grid).all Act.posts = true) {k : Change} {n : Nat}
    {u : Urgency} (hm : .post k n u ∈ w.posted s.grid) : (answerFrame f (atGrid d) s).Reports k n := by
  have reports := State.conclude_reports (List.all_eq_true.mp hp) hm (w.finished s.grid) (s.takeHeld f)
  simp only [answerFrame, atGrid, State.takeHeld_grid, h, answered_grid, answered_acts]
  exact reports

theorem exec_relight (tag : Byte) (n count : Nat) (s : State) : exec (.relight tag n count) s =
    .next (answerFrame ⟨0x50, tag, be 2 n ++ be 2 count⟩ (atGrid (doRelight n count)) s) := rfl

theorem exec_settle (tag : Byte) (n : Nat) (s : State) : exec (.settle tag n) s =
    .next (answerFrame ⟨0x51, tag, be 2 n⟩ (atGrid (doSettle n)) s) := rfl

/-! ### A segment relit or settled (06 R114 to R116) -/

theorem Segment.endOutage_some (net : Sec) (settled : Nat) {s : Segment} {p : Outage} (h : s.outage = some p) :
    s.endOutage net settled =
      { s with outage := none, summary := some ⟨p.cause, p.started, net, p.peak, p.relit, settled, p.repeats⟩ } := by
  unfold Segment.endOutage
  rw [h]

/-- With customers left off, the applied count moves from off to relit. -/
theorem Segment.relight_some (net : Sec) {a : Nat} {s : Segment} {p : Outage} (h : s.outage = some p) (ha : a < p.off) :
    s.relight net a = { s with outage := some { p with off := p.off - a, relit := p.relit + a } } := by
  unfold Segment.relight
  rw [h]
  exact if_neg (by omega)

/-- With nobody left off, the outage ends. -/
theorem Segment.relight_all (net : Sec) {s : Segment} {p : Outage} (h : s.outage = some p) :
    s.relight net p.off = { s with
      outage := none, summary := some ⟨p.cause, p.started, net, p.peak, p.relit + p.off, 0, p.repeats⟩ } := by
  unfold Segment.relight
  rw [h]
  exact if_pos (Nat.sub_self p.off)

theorem Segment.relight_none (net : Sec) (a : Nat) {s : Segment} (h : s.outage = none) :
    s.relight net a = { s with unrelit := s.unrelit - a } := by
  unfold Segment.relight
  rw [h]

/-- Out of an outage part the unrelit count is not touched. -/
theorem Segment.relight_unrelit_some (net : Sec) (a : Nat) {s : Segment} {p : Outage} (h : s.outage = some p) :
    (s.relight net a).unrelit = s.unrelit := by
  unfold Segment.relight
  rw [h]
  dsimp only
  split
  · rw [Segment.endOutage_some _ _ rfl]
  · rfl

theorem Segment.relight_num (net : Sec) (a : Nat) (s : Segment) : (s.relight net a).num = s.num :=
  congrArg Prod.fst (s.relight_supplied net a)

theorem Segment.settle_some (net : Sec) {s : Segment} {p : Outage} (h : s.outage = some p) :
    s.settle net = { s with
      unrelit := s.unrelit + p.off, outage := none,
      summary := some ⟨p.cause, p.started, net, p.peak, p.relit, p.off, p.repeats⟩ } := by
  have off : s.off = p.off := by unfold Segment.off; rw [h]
  unfold Segment.settle
  rw [off]
  exact Segment.endOutage_some net p.off h

theorem Segment.settle_num (net : Sec) (s : Segment) : (s.settle net).num = s.num :=
  congrArg Prod.fst (Segment.endOutage_supplied net s.off { s with unrelit := s.unrelit + s.off })

/-! ### What RELIGHT does -/

/-- The event of a RELIGHT of `a` customers of segment `n`, before its end. -/
def Grid.relighting (n a : Nat) (g : Grid) : Work :=
  ((Work.start g).on (Grid.onSeg n (Segment.relight g.net a))).reachSeg n .customers

theorem Grid.relighting_grid (n a : Nat) (g : Grid) :
    (g.relighting n a).grid = g.onSeg n (Segment.relight g.net a) := Work.reachSeg_grid _ _ _

theorem Grid.relighting_quiet (n a : Nat) (g : Grid) : (g.relighting n a).Quiet g := by
  constructor <;> rw [Grid.relighting_grid] <;> rfl

/-- The tree of a relit segment is reached by CUSTOMERS (03 Table 3-2), none by SAMPLE. -/
theorem Grid.relighting_unsampled (n a : Nat) (g : Grid) : ∀ c ∈ (g.relighting n a).causes, c.2 ≠ .sample := by
  unfold Grid.relighting Work.reachSeg
  intro c hc
  split at hc
  · rw [List.mem_singleton.mp hc]
    exact nofun
  · cases hc

section
variable {n : Nat} {r : Segment} {g : Grid} (inService : g.engine.state.inService = true) (hr : g.seg? n = some r)
include inService hr

theorem doRelight_refused {count : Nat} {c : Code} (h : r.relightRefusal = some c) : doRelight n count g = refuse g c := by
  simp [doRelight, inService, hr, h]

theorem doRelight_done {count : Nat} (h : r.relightRefusal = none) :
    doRelight n count g = (g.relighting n (r.relightCount count)).answered g .done fun u =>
      relightBytes (r.relightCount count) ((u.seg? n).getD r) := by
  simp [doRelight, inService, hr, h, Grid.relighting]

/-- A segment that is not in RELIGHTING is not settled. -/
theorem doSettle_refused (h : r.outage.any (fun p => p.stage == .relighting) = false) :
    doSettle n g = refuse g .wrongState := by
  simp [doSettle, inService, hr, h]

theorem doSettle_done {p : Outage} (h : r.outage = some p) (hp : p.stage = .relighting) :
    doSettle n g = ((Work.start g).on (Grid.onSeg n (Segment.settle g.net))).answered g .done fun _ =>
      be 2 p.off ++ be 2 (r.unrelit + p.off) := by
  have off : r.off = p.off := by unfold Segment.off; rw [h]
  simp [doSettle, inService, hr, h, hp, off]

end

/-! ### The checks of a RELIGHT (06 R114) -/

theorem Segment.relightRefusal_short {r : Segment} (h : r.band = some .short) : r.relightRefusal = some .lowPressure :=
  if_pos h

theorem Segment.relightRefusal_some {r : Segment} {p : Outage} (hb : r.band ≠ some .short) (h : r.outage = some p) :
    r.relightRefusal = if p.stage = .relighting then none else some .wrongState := by
  unfold Segment.relightRefusal
  rw [if_neg hb, h]

theorem Segment.relightRefusal_none {r : Segment} (hb : r.band ≠ some .short) (h : r.outage = none) :
    r.relightRefusal = if r.supply = .unfed ∨ r.unrelit = 0 then some .wrongState else none := by
  unfold Segment.relightRefusal
  rw [if_neg hb, h]

theorem exec_relight_refused {tag : Byte} {n count : Nat} {r : Segment} {s : State}
    (inService : s.grid.engine.state.inService = true) (hr : s.grid.seg? n = some r) {c : Code}
    (h : r.relightRefusal = some c) :
    exec (.relight tag n count) s = .next (s.told ⟨0x50, tag, be 2 n ++ be 2 count⟩ c []) := by
  rw [exec_relight, answerFrame_told (doRelight_refused inService hr h)]

/-- A RELIGHT that is taken relights the segment; the recomputation that follows leaves every segment's counts. -/
theorem exec_relight_done {tag : Byte} {n count : Nat} {r : Segment} {s : State}
    (inService : s.grid.engine.state.inService = true) (ns : s.grid.NetworkSound) (hr : s.grid.seg? n = some r)
    (h : r.relightRefusal = none) {a : Nat} (ha : r.relightCount count = a) :
    ∃ t r', exec (.relight tag n count) s = .next t ∧ t.grid.seg? n = some r' ∧
      r'.restoring = (r.relight s.grid.net a).restoring ∧
      (∀ m, m ≠ n → (t.grid.seg? m).map Segment.restoring = (s.grid.seg? m).map Segment.restoring) ∧
      s.Replies t 0xD0 tag .done (relightBytes a r') := by
  subst ha
  have done := doRelight_done (count := count) inService hr h
  have segs (m : Nat) : (((s.grid.relighting n (r.relightCount count)).finished s.grid).seg? m).map Segment.restoring =
      ((s.grid.onSeg n (Segment.relight s.grid.net (r.relightCount count))).seg? m).map Segment.restoring := by
    rw [← Grid.relighting_grid]
    exact Grid.seg?_congr (val := Segment.restoring) Segment.num (fun _ => rfl)
      ((Grid.relighting_quiet _ _ _).finished_restoring ns inService (Grid.relighting_unsampled _ _ _)) m
  have relit := segs n
  rw [Grid.seg?_onSeg_self (Segment.relight_num _ _) hr, Option.map_some] at relit
  obtain ⟨r', hr', e⟩ := Option.map_eq_some_iff.mp relit
  refine ⟨_, r', exec_relight tag n count s, ?_, e, fun m hm => ?_, ?_⟩
  · rw [answerFrame_finished done, hr']
  · rw [answerFrame_finished done, segs m, Grid.seg?_onSeg_other (Segment.relight_num _ _) _ hm]
  · have replies := answerFrame_replies (f := ⟨0x50, tag, be 2 n ++ be 2 count⟩) done
    rw [hr', Option.getD_some] at replies
    exact replies

/-- Segments that agree but for estimate, stable count and what is derived have the same off, relit and unrelit counts. -/
theorem counts_of_restoring {o u : Option Segment} (h : o.map Segment.restoring = u.map Segment.restoring) :
    (o.map fun x => (x.outage.map fun q => (q.off, q.relit), x.unrelit)) =
      u.map fun x => (x.outage.map fun q => (q.off, q.relit), x.unrelit) := by
  have e := congrArg (Option.map fun x => (x.outage.map fun q => (q.off, q.relit), x.unrelit)) h
  simpa only [Option.map_map, Function.comp_def, Segment.restoring, Segment.stripped] using e

/-! ### What SETTLE does -/

/-- A SETTLE that is taken settles the segment; no tree is reached. -/
theorem exec_settle_done {tag : Byte} {n : Nat} {r : Segment} {s : State}
    (inService : s.grid.engine.state.inService = true) (ns : s.grid.NetworkSound) (hr : s.grid.seg? n = some r)
    {p : Outage} (h : r.outage = some p) (hp : p.stage = .relighting) :
    ∃ t r', exec (.settle tag n) s = .next t ∧ t.grid.seg? n = some r' ∧
      r'.stripped = (r.settle s.grid.net).stripped ∧
      s.Replies t 0xD1 tag .done (be 2 p.off ++ be 2 (r.unrelit + p.off)) ∧ t.Reports .segOutage n := by
  have done := doSettle_done inService hr h hp
  have quiet : ((Work.start s.grid).on (Grid.onSeg n (Segment.settle s.grid.net))).Quiet s.grid := ⟨rfl, rfl, rfl⟩
  have settled := Grid.seg?_onSeg_self (Segment.settle_num s.grid.net) hr
  have segs := Grid.seg?_congr (val := Segment.stripped) Segment.num (fun _ => rfl)
    (quiet.finished_stripped ns inService rfl) n
  rw [Work.on_grid, Work.start_grid, settled, Option.map_some] at segs
  obtain ⟨r', hr', e⟩ := Option.map_eq_some_iff.mp segs
  obtain ⟨posts, posted⟩ := quiet.posted ns inService rfl
  have ended : .post .segOutage n .routine ∈
      ((Work.start s.grid).on (Grid.onSeg n (Segment.settle s.grid.net))).posted s.grid := by
    obtain ⟨r₁, mem, num, outage⟩ := Grid.mem_tallied (List.mem_of_find?_eq_some settled)
    rw [Segment.settle_num, Grid.seg?_num hr] at num
    rw [Segment.settle_some _ h] at outage
    have own := Segment.acts_outage_ended h outage
    rw [num] at own
    exact posted _ (mem_diffActs_of_seg mem (num.symm ▸ hr) own)
  refine ⟨_, r', exec_settle tag n s, ?_, e, answerFrame_replies (f := ⟨0x51, tag, be 2 n⟩) done,
    answerFrame_reports done posts ended⟩
  rw [answerFrame_finished done, hr']

/-- Settles O41: the checks of each request by the segment's band and outage part, then the segment it leaves, whose counts
the end of the event keeps. -/
theorem relightAndSettleCounts : Obligations.RelightAndSettleCounts := by
  intro tag n count r s inService ns hr
  refine ⟨fun short => ?_, fun p hb ho hp => ?_, fun hb ho none => ?_, fun p hb ho hp => ?_, fun hb ho fed some => ?_,
    fun idle => ?_, fun p ho hp => ?_⟩
  · exact exec_relight_refused inService hr (Segment.relightRefusal_short short)
  · exact exec_relight_refused inService hr ((Segment.relightRefusal_some hb ho).trans (if_neg hp))
  · exact exec_relight_refused inService hr ((Segment.relightRefusal_none hb ho).trans (if_pos none))
  · have taken := (Segment.relightRefusal_some hb ho).trans (if_pos hp)
    have applied : r.relightCount count = min (max 1 (min 1000 count)) p.off := by
      simp only [Segment.relightCount, ho, clampRelight]
    obtain ⟨t, r', next, seg, left, others, replies⟩ := exec_relight_done (tag := tag) inService ns hr taken applied
    refine ⟨t, r', next, seg, ?_, fun ha => ?_, fun ha => ?_, fun m hm => ?_, replies⟩
    · exact (congrArg Segment.unrelit left).trans (Segment.relight_unrelit_some _ _ ho)
    · rw [Segment.relight_some _ ho ha] at left
      obtain ⟨q, hq, e⟩ := Option.map_eq_some_iff.mp (congrArg Segment.outage left)
      exact ⟨q, hq, congrArg Outage.off e, congrArg Outage.relit e, (congrArg Outage.stage e).trans hp⟩
    · rw [ha, Segment.relight_all _ ho] at left
      rw [ha]
      exact ⟨Option.map_eq_none_iff.mp (congrArg Segment.outage left), congrArg Segment.summary left⟩
    · exact counts_of_restoring (others m hm)
  · have taken := (Segment.relightRefusal_none hb ho).trans (if_neg (not_or.mpr ⟨fed, some⟩))
    have applied : r.relightCount count = min (max 1 (min 1000 count)) r.unrelit := by
      simp only [Segment.relightCount, ho, clampRelight]
    obtain ⟨t, r', next, seg, left, _, replies⟩ := exec_relight_done (tag := tag) inService ns hr taken applied
    rw [Segment.relight_none _ _ ho] at left
    exact ⟨t, r', next, seg, congrArg Segment.unrelit left,
      Option.map_eq_none_iff.mp ((congrArg Segment.outage left).trans (congrArg (Option.map _) ho)), replies⟩
  · rw [exec_settle, answerFrame_told (doSettle_refused inService hr idle)]
  · obtain ⟨t, r', next, seg, left, replies, reports⟩ := exec_settle_done (tag := tag) inService ns hr ho hp
    rw [Segment.settle_some _ ho] at left
    have est := congrArg Segment.est left
    exact ⟨t, r', next, seg, congrArg Segment.outage left, congrArg Segment.unrelit left,
      congrArg Segment.summary left, est, replies, reports⟩

end Sys2Proof.Machine
end
